-- ==== Sys2Proof/Word.lean ====
section
/-!
DEFINITION. The word types of the CHIP-8 core (00_scope R2, R9): 8-bit data, 16-bit words, 12-bit addresses,
register numbers 0..15.
-/

namespace Sys2Proof

/-- A general register, a memory cell, a timer: 8 bits, unsigned (00_scope R2, R11). -/
abbrev Byte := BitVec 8

/-- An instruction word, `pc`, `I`, a stack slot: 16 bits (00_scope R2, R9). -/
abbrev Word := BitVec 16

/-- The immediate address `NNN` of an instruction: 12 bits (30_encoding R91). -/
abbrev Addr := BitVec 12

/-- A general register number, `X` or `Y` of an instruction: 0..15 (30_encoding R93). -/
abbrev RegNum := Fin 16

end Sys2Proof
end

