-- ==== Sys2Proof/Config.lean ====
section
/-!
DEFINITION. What the spec fixes for the implementation (00_scope R9) and the free values of the environment
(00_scope R10): the key snapshot, the random byte and the tick count of a cycle.
-/

namespace Sys2Proof

/-- `PROG_ORIGIN`: load address of a program and reset value of `pc` (00_scope R9). -/
def Config.progOrigin : Nat := 0x200

/-- `MAX_IMAGE`: the largest program image, `4096 - 0x200` bytes (00_scope R9, 60_exceptions R225). -/
def Config.maxImage : Nat := 3584

/-- FREE VALUE (log 1): the 16 key lines at the `n`-th cycle, where State schedules none (R10, R222). -/
opaque Config.freeKeys : Nat → BitVec 16

/-- FREE VALUE (log 1): the random byte at the `n`-th cycle, where State schedules none (R10, R227; D4). -/
opaque Config.freeRnd : Nat → Byte

/-- FREE VALUE (log 1): the number of timer ticks of the `n`-th cycle, where State schedules none (R10, R218; D3). -/
opaque Config.freeTicks : Nat → Nat

end Sys2Proof
end

