-- ==== Sys2Proof/Syntax.lean ====
section
/-!
DEFINITION. The instructions: one constructor per row of spec/opcode_table.json (30_encoding R96), named by the row's
pattern, each carrying only the operands it needs (30_encoding R95). The types of the operands hold exactly the
values of their fields.
-/

namespace Sys2Proof

/-- The 33 instructions (30_encoding R96). -/
inductive Instr where
  /-- clear the framebuffer (R190) -/
  | op00E0
  /-- return from subroutine (R140) -/
  | op00EE
  /-- jump (R141) -/
  | op1NNN (nnn : Addr)
  /-- call subroutine (R142) -/
  | op2NNN (nnn : Addr)
  /-- skip if register equals immediate (R150) -/
  | op3XNN (x : RegNum) (nn : Byte)
  /-- skip if register differs from immediate (R151) -/
  | op4XNN (x : RegNum) (nn : Byte)
  /-- skip if two registers are equal (R152) -/
  | op5XY0 (x y : RegNum)
  /-- load immediate (R160) -/
  | op6XNN (x : RegNum) (nn : Byte)
  /-- add immediate, no flag (R161) -/
  | op7XNN (x : RegNum) (nn : Byte)
  /-- copy register (R162) -/
  | op8XY0 (x y : RegNum)
  /-- bitwise OR (R163) -/
  | op8XY1 (x y : RegNum)
  /-- bitwise AND (R164) -/
  | op8XY2 (x y : RegNum)
  /-- bitwise exclusive OR (R165) -/
  | op8XY3 (x y : RegNum)
  /-- add with carry flag (R166) -/
  | op8XY4 (x y : RegNum)
  /-- subtract with not-borrow flag (R167) -/
  | op8XY5 (x y : RegNum)
  /-- shift right by one, source `Vy` (R168) -/
  | op8XY6 (x y : RegNum)
  /-- reverse subtract with not-borrow flag (R169) -/
  | op8XY7 (x y : RegNum)
  /-- shift left by one, source `Vy` (R170) -/
  | op8XYE (x y : RegNum)
  /-- skip if two registers differ (R153) -/
  | op9XY0 (x y : RegNum)
  /-- load index register (R180) -/
  | opANNN (nnn : Addr)
  /-- jump to `NNN` plus register 0 (R143) -/
  | opBNNN (nnn : Addr)
  /-- masked random byte (R171) -/
  | opCXNN (x : RegNum) (nn : Byte)
  /-- draw a sprite of `n` rows (R191) -/
  | opDXYN (x y : RegNum) (n : Fin 16)
  /-- skip if key pressed (R154) -/
  | opEX9E (x : RegNum)
  /-- skip if key not pressed (R155) -/
  | opEXA1 (x : RegNum)
  /-- read the delay timer (R200) -/
  | opFX07 (x : RegNum)
  /-- wait for a key (R201) -/
  | opFX0A (x : RegNum)
  /-- set the delay timer (R202) -/
  | opFX15 (x : RegNum)
  /-- set the sound timer (R203) -/
  | opFX18 (x : RegNum)
  /-- add a register to the index register (R181) -/
  | opFX1E (x : RegNum)
  /-- store three decimal digits (R182) -/
  | opFX33 (x : RegNum)
  /-- store registers 0 to X (R183) -/
  | opFX55 (x : RegNum)
  /-- load registers 0 to X (R184) -/
  | opFX65 (x : RegNum)
  deriving DecidableEq, Repr

/-- What a word decodes to: one of the 33 instructions, or `UNKNOWN(word)` (30_encoding R95, R103). -/
inductive Decoded where
  /-- the word selects an instruction of the table -/
  | instr (i : Instr)
  /-- the word selects no row: an unknown opcode, rejected by the decoder under this name -/
  | unknown (w : Word)
  deriving DecidableEq, Repr

/-- A row of the opcode map: a word `w` selects it iff `w &&& mask = value` (30_encoding R96). -/
structure OpcodeRow where
  /-- the row's pattern -/
  mnemonic : String
  /-- the bits the decoder examines -/
  mask : Word
  /-- their values -/
  value : Word
  deriving DecidableEq, Repr

end Sys2Proof
end

