-- ==== Sys2Proof/WellFormed.lean ====
section
/-!
DEFINITION. Well-formedness. An `Instr` needs no check: its operand types hold exactly the values of their fields
(30_encoding R93: all sixteen register numbers, every `NN`, `NNN` and `N` are legal), so an ill-formed instruction cannot
be written. What can be ill-formed is a WORD that is not the canonical spelling of its instruction (30_encoding R97,
R101: a program should use only those; the decoder accepts the others too) and a program IMAGE too long for the memory
(60_exceptions R225).
-/

namespace Sys2Proof

/-- Class 0 words are canonical with `X = 0` (30_encoding R97). -/
def canonicalClass0 (w : Word) : Bool :=
  w.extractLsb' 12 4 != 0x0#4 || w.extractLsb' 8 4 == 0x0#4

/-- Class 5 words are canonical with `N = 0` (30_encoding R101). -/
def canonicalClass5 (w : Word) : Bool :=
  w.extractLsb' 12 4 != 0x5#4 || w.extractLsb' 0 4 == 0x0#4

/-- Class 9 words are canonical with `N = 0` (30_encoding R101). -/
def canonicalClass9 (w : Word) : Bool :=
  w.extractLsb' 12 4 != 0x9#4 || w.extractLsb' 0 4 == 0x0#4

/-- The word spells the bits its decoder ignores as 0. -/
def canonicalWord (w : Word) : Bool :=
  canonicalClass0 w && canonicalClass5 w && canonicalClass9 w

/-- The image fits between `0x200` and the end of memory (00_scope R9, 60_exceptions R225). -/
def imageFits (image : List Byte) : Bool :=
  decide (image.length ≤ Config.maxImage)

end Sys2Proof
end

