-- ==== Sys2Proof/Decode.lean ====
section
/-!
DEFINITION. The decoder, total on any word and on any two bytes, then the encoder and the opcode map, each written from
30_encoding (R90 to R103) on its own, so that they can be checked against each other.
-/

namespace Sys2Proof

/-- `class = word[15:12]` (30_encoding R91). -/
def classField (w : Word) : BitVec 4 := w.extractLsb' 12 4

/-- `X = word[11:8]` (30_encoding R91), as a register number. -/
def xField (w : Word) : RegNum := (w.extractLsb' 8 4).toFin

/-- `Y = word[7:4]` (30_encoding R91), as a register number. -/
def yField (w : Word) : RegNum := (w.extractLsb' 4 4).toFin

/-- `N = word[3:0]` (30_encoding R91). -/
def nField (w : Word) : BitVec 4 := w.extractLsb' 0 4

/-- `NN = word[7:0]` (30_encoding R91). -/
def nnField (w : Word) : Byte := w.extractLsb' 0 8

/-- `NNN = word[11:0]` (30_encoding R91). -/
def nnnField (w : Word) : Addr := w.extractLsb' 0 12

/-- Class 0 dispatches on `NN`; `X` is not examined (30_encoding R97; log 9). -/
def decodeClass0 (w : Word) : Decoded :=
  match nnField w with
  | 0xE0#8 => .instr .op00E0
  | 0xEE#8 => .instr .op00EE
  | _ => .unknown w

/-- Class 8 dispatches on `N` (30_encoding R98). -/
def decodeClass8 (w : Word) : Decoded :=
  match nField w with
  | 0x0#4 => .instr (.op8XY0 (xField w) (yField w))
  | 0x1#4 => .instr (.op8XY1 (xField w) (yField w))
  | 0x2#4 => .instr (.op8XY2 (xField w) (yField w))
  | 0x3#4 => .instr (.op8XY3 (xField w) (yField w))
  | 0x4#4 => .instr (.op8XY4 (xField w) (yField w))
  | 0x5#4 => .instr (.op8XY5 (xField w) (yField w))
  | 0x6#4 => .instr (.op8XY6 (xField w) (yField w))
  | 0x7#4 => .instr (.op8XY7 (xField w) (yField w))
  | 0xE#4 => .instr (.op8XYE (xField w) (yField w))
  | _ => .unknown w

/-- Class E dispatches on `NN` (30_encoding R99). -/
def decodeClassE (w : Word) : Decoded :=
  match nnField w with
  | 0x9E#8 => .instr (.opEX9E (xField w))
  | 0xA1#8 => .instr (.opEXA1 (xField w))
  | _ => .unknown w

/-- Class F dispatches on `NN` (30_encoding R100). -/
def decodeClassF (w : Word) : Decoded :=
  match nnField w with
  | 0x07#8 => .instr (.opFX07 (xField w))
  | 0x0A#8 => .instr (.opFX0A (xField w))
  | 0x15#8 => .instr (.opFX15 (xField w))
  | 0x18#8 => .instr (.opFX18 (xField w))
  | 0x1E#8 => .instr (.opFX1E (xField w))
  | 0x33#8 => .instr (.opFX33 (xField w))
  | 0x55#8 => .instr (.opFX55 (xField w))
  | 0x65#8 => .instr (.opFX65 (xField w))
  | _ => .unknown w

/-- Decode: total, two-level, outer level on the class (30_encoding R95); classes 5 and 9 do not examine `N`
(R101; log 9). -/
def decode (w : Word) : Decoded :=
  match classField w with
  | 0x0#4 => decodeClass0 w
  | 0x1#4 => .instr (.op1NNN (nnnField w))
  | 0x2#4 => .instr (.op2NNN (nnnField w))
  | 0x3#4 => .instr (.op3XNN (xField w) (nnField w))
  | 0x4#4 => .instr (.op4XNN (xField w) (nnField w))
  | 0x5#4 => .instr (.op5XY0 (xField w) (yField w))
  | 0x6#4 => .instr (.op6XNN (xField w) (nnField w))
  | 0x7#4 => .instr (.op7XNN (xField w) (nnField w))
  | 0x8#4 => decodeClass8 w
  | 0x9#4 => .instr (.op9XY0 (xField w) (yField w))
  | 0xA#4 => .instr (.opANNN (nnnField w))
  | 0xB#4 => .instr (.opBNNN (nnnField w))
  | 0xC#4 => .instr (.opCXNN (xField w) (nnField w))
  | 0xD#4 => .instr (.opDXYN (xField w) (yField w) (nField w).toFin)
  | 0xE#4 => decodeClassE w
  | _ => decodeClassF w

/-- The two bytes of an instruction combined big-endian: the byte at the lower address is the more significant one
(20_memory R60). -/
def joinBytes (hi lo : Byte) : Word := hi ++ lo

/-- The byte of a word that lies at the lower address (20_memory R60). -/
def highByte (w : Word) : Byte := w.extractLsb' 8 8

/-- The byte of a word that lies at the higher address (20_memory R60). -/
def lowByte (w : Word) : Byte := w.extractLsb' 0 8

/-- Decode on the two bytes that a fetch delivers. -/
def decodeBytes (hi lo : Byte) : Decoded := decode (joinBytes hi lo)

/-- The 4-bit field of a register number or a row count. -/
def nibble (r : Fin 16) : BitVec 4 := BitVec.ofFin r

/-- Format XNN: class, `X`, `NN` (30_encoding R92). -/
def encodeXNN (c : BitVec 4) (x : RegNum) (nn : Byte) : Word := c ++ nibble x ++ nn

/-- Formats XY, XYn, XYN: class, `X`, `Y`, low nibble (30_encoding R92). -/
def encodeXYN (c : BitVec 4) (x y : RegNum) (n : BitVec 4) : Word := c ++ nibble x ++ nibble y ++ n

/-- Format NNN: class, `NNN` (30_encoding R92). -/
def encodeNNN (c : BitVec 4) (nnn : Addr) : Word := c ++ nnn

/-- The canonical word of an instruction (30_encoding R92, R96, R97, R101). -/
def encode : Instr → Word
  | .op00E0 => 0x00E0#16
  | .op00EE => 0x00EE#16
  | .op1NNN nnn => encodeNNN 0x1#4 nnn
  | .op2NNN nnn => encodeNNN 0x2#4 nnn
  | .op3XNN x nn => encodeXNN 0x3#4 x nn
  | .op4XNN x nn => encodeXNN 0x4#4 x nn
  | .op5XY0 x y => encodeXYN 0x5#4 x y 0x0#4
  | .op6XNN x nn => encodeXNN 0x6#4 x nn
  | .op7XNN x nn => encodeXNN 0x7#4 x nn
  | .op8XY0 x y => encodeXYN 0x8#4 x y 0x0#4
  | .op8XY1 x y => encodeXYN 0x8#4 x y 0x1#4
  | .op8XY2 x y => encodeXYN 0x8#4 x y 0x2#4
  | .op8XY3 x y => encodeXYN 0x8#4 x y 0x3#4
  | .op8XY4 x y => encodeXYN 0x8#4 x y 0x4#4
  | .op8XY5 x y => encodeXYN 0x8#4 x y 0x5#4
  | .op8XY6 x y => encodeXYN 0x8#4 x y 0x6#4
  | .op8XY7 x y => encodeXYN 0x8#4 x y 0x7#4
  | .op8XYE x y => encodeXYN 0x8#4 x y 0xE#4
  | .op9XY0 x y => encodeXYN 0x9#4 x y 0x0#4
  | .opANNN nnn => encodeNNN 0xA#4 nnn
  | .opBNNN nnn => encodeNNN 0xB#4 nnn
  | .opCXNN x nn => encodeXNN 0xC#4 x nn
  | .opDXYN x y n => encodeXYN 0xD#4 x y (nibble n)
  | .opEX9E x => encodeXNN 0xE#4 x 0x9E#8
  | .opEXA1 x => encodeXNN 0xE#4 x 0xA1#8
  | .opFX07 x => encodeXNN 0xF#4 x 0x07#8
  | .opFX0A x => encodeXNN 0xF#4 x 0x0A#8
  | .opFX15 x => encodeXNN 0xF#4 x 0x15#8
  | .opFX18 x => encodeXNN 0xF#4 x 0x18#8
  | .opFX1E x => encodeXNN 0xF#4 x 0x1E#8
  | .opFX33 x => encodeXNN 0xF#4 x 0x33#8
  | .opFX55 x => encodeXNN 0xF#4 x 0x55#8
  | .opFX65 x => encodeXNN 0xF#4 x 0x65#8

/-- The two bytes of an instruction as they lie in memory, lower address first (20_memory R60, R62). -/
def encodeBytes (i : Instr) : List Byte := [highByte (encode i), lowByte (encode i)]

/-- The row of the opcode map that an instruction belongs to: pattern, mask and match as 30_encoding R96 prints them. -/
def rowOf : Instr → OpcodeRow
  | .op00E0 => ⟨"00E0", 0xF0FF#16, 0x00E0#16⟩
  | .op00EE => ⟨"00EE", 0xF0FF#16, 0x00EE#16⟩
  | .op1NNN _ => ⟨"1NNN", 0xF000#16, 0x1000#16⟩
  | .op2NNN _ => ⟨"2NNN", 0xF000#16, 0x2000#16⟩
  | .op3XNN _ _ => ⟨"3XNN", 0xF000#16, 0x3000#16⟩
  | .op4XNN _ _ => ⟨"4XNN", 0xF000#16, 0x4000#16⟩
  | .op5XY0 _ _ => ⟨"5XY0", 0xF000#16, 0x5000#16⟩
  | .op6XNN _ _ => ⟨"6XNN", 0xF000#16, 0x6000#16⟩
  | .op7XNN _ _ => ⟨"7XNN", 0xF000#16, 0x7000#16⟩
  | .op8XY0 _ _ => ⟨"8XY0", 0xF00F#16, 0x8000#16⟩
  | .op8XY1 _ _ => ⟨"8XY1", 0xF00F#16, 0x8001#16⟩
  | .op8XY2 _ _ => ⟨"8XY2", 0xF00F#16, 0x8002#16⟩
  | .op8XY3 _ _ => ⟨"8XY3", 0xF00F#16, 0x8003#16⟩
  | .op8XY4 _ _ => ⟨"8XY4", 0xF00F#16, 0x8004#16⟩
  | .op8XY5 _ _ => ⟨"8XY5", 0xF00F#16, 0x8005#16⟩
  | .op8XY6 _ _ => ⟨"8XY6", 0xF00F#16, 0x8006#16⟩
  | .op8XY7 _ _ => ⟨"8XY7", 0xF00F#16, 0x8007#16⟩
  | .op8XYE _ _ => ⟨"8XYE", 0xF00F#16, 0x800E#16⟩
  | .op9XY0 _ _ => ⟨"9XY0", 0xF000#16, 0x9000#16⟩
  | .opANNN _ => ⟨"ANNN", 0xF000#16, 0xA000#16⟩
  | .opBNNN _ => ⟨"BNNN", 0xF000#16, 0xB000#16⟩
  | .opCXNN _ _ => ⟨"CXNN", 0xF000#16, 0xC000#16⟩
  | .opDXYN _ _ _ => ⟨"DXYN", 0xF000#16, 0xD000#16⟩
  | .opEX9E _ => ⟨"EX9E", 0xF0FF#16, 0xE09E#16⟩
  | .opEXA1 _ => ⟨"EXA1", 0xF0FF#16, 0xE0A1#16⟩
  | .opFX07 _ => ⟨"FX07", 0xF0FF#16, 0xF007#16⟩
  | .opFX0A _ => ⟨"FX0A", 0xF0FF#16, 0xF00A#16⟩
  | .opFX15 _ => ⟨"FX15", 0xF0FF#16, 0xF015#16⟩
  | .opFX18 _ => ⟨"FX18", 0xF0FF#16, 0xF018#16⟩
  | .opFX1E _ => ⟨"FX1E", 0xF0FF#16, 0xF01E#16⟩
  | .opFX33 _ => ⟨"FX33", 0xF0FF#16, 0xF033#16⟩
  | .opFX55 _ => ⟨"FX55", 0xF0FF#16, 0xF055#16⟩
  | .opFX65 _ => ⟨"FX65", 0xF0FF#16, 0xF065#16⟩

/-- The word selects the instruction's row (30_encoding R96). -/
def selects (w : Word) (r : OpcodeRow) : Bool := w &&& r.mask == r.value

/-- The word whose bits are the number `w`, of which the table gives `nbits`: higher bits are 0. -/
def tableWord (nbits w : Nat) : Word := BitVec.ofNat 16 (w % 2 ^ nbits)

/-- What this decoder reads from an instruction whose bits are `w`, laid out as the hardware stores it (high byte at the
lower address); none where the word is an unknown opcode. -/
def decodeTableWord (nbits w : Nat) : Option Instr :=
  match decodeBytes (highByte (tableWord nbits w)) (lowByte (tableWord nbits w)) with
  | .instr i => some i
  | .unknown _ => none

end Sys2Proof
end

