-- ==== Sys2Proof/Machine/State.lean ====
section
/-!
DEFINITION. The machine's state as plain data (10_state R20: one field per component), the held outputs of a cycle
(40_cycle R127, 60_exceptions R212), the random latch (60_exceptions R227), the model's own two fields for the
environment's inputs (log 1), the reasons a step can stop, and the state after reset (10_state R40).
-/

namespace Sys2Proof.Machine

/-- Main memory: the cells that differ from what an unlisted address reads as (0, the reset contents, 10_state R40), by
strictly rising address. 10_state R35. -/
abbrev Memory := List Host.Cell

/-- The framebuffer: 32 rows of 64 pixels, row-major; pixel `p = y*64 + x` is bit `x` of row `y` (10_state R36;
one bit a pixel, log 5). -/
abbrev Framebuffer := Vector (BitVec 64) 32

/-- The diagnostic code of a cycle (60_exceptions R211). -/
inductive Diag where
  /-- code 0: nothing to report -/
  | none
  /-- code 1: `2NNN` with a full stack -/
  | stackOverflow
  /-- code 2: `00EE` with an empty stack -/
  | stackUnderflow
  /-- code 3: a word that selects no instruction -/
  | unknownOpcode
  deriving DecidableEq, Repr

/-- The inputs of one cycle (40_cycle R120, R130): the key lines, the random byte, the number of timer ticks. -/
structure CycleInput where
  /-- the 16 key lines, bit `k` is key `k` (60_exceptions R222) -/
  keys : BitVec 16
  /-- the random byte (60_exceptions R227) -/
  rnd : Byte
  /-- how many 60 Hz ticks fall in this cycle's time-account step (60_exceptions R218) -/
  ticks : Nat
  deriving DecidableEq, Repr

/-- Reasons a step faults: NONE. "No instruction can fail, trap or abort" (40_cycle R125), and a cycle's result is never
a fault (40_cycle R130), so the type is empty: that no step faults holds by its type. Safe: nothing is left out. -/
inductive Fault where
  deriving DecidableEq, Repr

/-- Reasons for a refusal. No instruction and no cycle raises one (40_cycle R130). -/
inductive Refusal where
  /-- An instruction without a meaning, by its mnemonic: raised by no arm of `exec` (safe). -/
  | notModelled (mnemonic : String)
  /-- A program image longer than 3584 bytes: raised by the host move `loadProgram` alone, before it changes anything
  (60_exceptions R225; 93_implementation_defined U12: refuse). Safe: such a launch has no run. -/
  | imageTooLarge (bytes : Nat)
  /-- A load after the first cycle: raised by the host moves `loadByte` and `loadProgram`, by no instruction and no cycle
  (60_exceptions R225; 93_implementation_defined U13: refuse). Safe: no such host move. -/
  | loadAfterStart
  /-- A port write below `0x200`: raised by the host move `loadByte` alone (60_exceptions R225; 93_implementation_defined
  U13: refuse). Safe: no such host move. -/
  | loadBelowOrigin (addr : Nat)
  deriving DecidableEq, Repr

/-- The whole state of the block. -/
structure State where
  /-- `x[0..15]`, the general registers; `x[15]` is `VF` (10_state R21, R22) -/
  x : Vector Byte 16
  /-- the program counter, all 16 bits (10_state R24, R26) -/
  pc : Word
  /-- the index register, all 16 bits (10_state R33) -/
  I : Word
  /-- the call stack's 16 slots; slots at and above `sp` are dead (10_state R34; log 4) -/
  stack : Vector Word 16
  /-- index of the next free slot, 0..16 (10_state R31) -/
  sp : Fin 17
  /-- the delay timer (10_state R29) -/
  DT : Byte
  /-- the sound timer (10_state R30) -/
  ST : Byte
  /-- main memory (10_state R35) -/
  mem : Memory
  /-- the framebuffer (10_state R36) -/
  fb : Framebuffer
  /-- the latched key snapshot, bit `k` is key `k` (10_state R32) -/
  key : BitVec 16
  /-- the latched random byte of this cycle (60_exceptions R227; log 3) -/
  rnd : Byte
  /-- held output: the diagnostic code of the last cycle (60_exceptions R212; log 6) -/
  diag : Diag
  /-- held output: the word the last cycle fetched (40_cycle R127; log 6) -/
  executedOpcode : Word
  /-- held output: `pc` when the last cycle began (40_cycle R127; log 6) -/
  pcBefore : Word
  /-- a cycle has begun since reset: from then on the program load port is closed (40_cycle R131, 60_exceptions R225;
  log 17) -/
  started : Bool
  /-- MODEL'S OWN: the inputs the environment will give the coming cycles, oldest first (log 1) -/
  inputs : List CycleInput
  /-- MODEL'S OWN: how many cycles have begun; it only indexes the free values (log 1) -/
  cycle : Nat
  deriving DecidableEq, Repr

/-- The machine right after reset: everything zero but `pc = 0x0200` (10_state R40), the outputs as 70_reset R240 gives
them. The reset values of `rnd`, `inputs` and `cycle` are the model's (log 2, 3). -/
def State.reset : State where
  x := Vector.replicate 16 0#8
  pc := 0x0200#16
  I := 0#16
  stack := Vector.replicate 16 0#16
  sp := 0
  DT := 0#8
  ST := 0#8
  mem := []
  fb := Vector.replicate 32 0#64
  key := 0#16
  rnd := 0#8
  diag := .none
  executedOpcode := 0#16
  pcBefore := 0#16
  started := false
  inputs := []
  cycle := 0

end Sys2Proof.Machine
end

