-- ==== Sys2Proof/Machine/Ops.lean ====
section
/-!
DEFINITION. The named operations over memory, registers, stack, framebuffer and timers: every read and write of State
goes through one of these. Taking an exception does not exist on this hardware (60_exceptions R210, R215); what it has
instead, reporting a condition, is the one operation `State.report`.
-/

namespace Sys2Proof.Machine

/-! ### Memory (20_memory R66 to R68, R77) -/

/-- What an address that is not listed reads as: the reset contents (10_state R40, 70_reset R241). -/
def Memory.unlisted : Byte := 0x00#8

/-- The byte at the cell `a` (an address below 4096). -/
def Memory.read : Memory → Nat → Byte
  | [], _ => Memory.unlisted
  | c :: m, a => if c.1 = a then c.2 else Memory.read m a

/-- Put a cell in its place by address. -/
def Memory.insert : Memory → Nat → Byte → Memory
  | [], a, v => [(a, v)]
  | c :: m, a, v => if c.1 < a then c :: Memory.insert m a v else (a, v) :: c :: m

/-- Set the cell `a` to `v`, keeping the canonical form: the value an unlisted address reads as is not listed. -/
def Memory.write (m : Memory) (a : Nat) (v : Byte) : Memory :=
  let rest := m.filter fun c => c.1 != a
  if v = Memory.unlisted then rest else Memory.insert rest a v

/-- The canonical form: addresses below 4096, strictly rising, no entry equal to what an unlisted address reads as. -/
def Memory.wf : Memory → Bool
  | [] => true
  | c :: m => decide (c.1 < 4096) && c.2 != Memory.unlisted && m.all (fun d => decide (c.1 < d.1)) && Memory.wf m

/-- Every address is reduced mod 4096 when it reaches the memory (20_memory R68). -/
def wrapAddr (a : Nat) : Nat := a % 4096

/-- Store bytes one by one at ascending addresses from `a`, each address reduced on its own (20_memory R61, R68). -/
def Memory.writeBytes (m : Memory) (a : Nat) : List Byte → Memory
  | [] => m
  | b :: bs => Memory.writeBytes (m.write (wrapAddr a) b) (a + 1) bs

/-- `MemRead(a, 1)` (20_memory R77). -/
def State.memRead (s : State) (a : Nat) : Byte := s.mem.read (wrapAddr a)

/-- `MemWrite(a, 1, v)` (20_memory R77). -/
def State.memWrite (s : State) (a : Nat) (v : Byte) : State :=
  { s with mem := s.mem.write (wrapAddr a) v }

/-- `MemWrite(a + k, 1, bs[k])` for each `k`, ascending (20_memory R61, 44_index_memory R185). -/
def State.memWriteBytes (s : State) (a : Nat) (bs : List Byte) : State :=
  { s with mem := s.mem.writeBytes a bs }

/-- `MemRead(a + k, 1)` for `k` from 0 to `n - 1`, ascending (20_memory R61, 44_index_memory R185). -/
def State.memReadBytes (s : State) (a n : Nat) : List Byte :=
  (List.range n).map fun k => s.memRead (a + k)

/-- The word at address `a`: two byte reads combined big-endian, each address reduced on its own (20_memory R60, R64). -/
def State.wordAt (s : State) (a : Nat) : Word := joinBytes (s.memRead a) (s.memRead (a + 1))

/-- Store a word at address `a` as the hardware lays it out: high byte first (20_memory R60, R62). -/
def State.placeWord (s : State) (a : Nat) (w : Word) : State :=
  s.memWriteBytes a [highByte w, lowByte w]

/-! ### Registers -/

/-- `x[r]` (00_scope R13). -/
def State.reg (s : State) (r : RegNum) : Byte := s.x[r]

/-- `x[r] <- v` (00_scope R13). -/
def State.setReg (s : State) (r : RegNum) (v : Byte) : State := { s with x := s.x.set r v }

/-- Write `x[r]`, then `x[15]`: result first, flag second, so that the flag wins when `r = 15` (43_alu R173; log 8). -/
def State.setRegThenFlag (s : State) (r : RegNum) (v flag : Byte) : State :=
  (s.setReg r v).setReg 15 flag

/-- `x[i] <- v[i]` for `i` from 0 to `last`, the others unchanged (44_index_memory R184). -/
def State.loadRegs (s : State) (last : RegNum) (v : RegNum → Byte) : State :=
  { s with x := Vector.ofFn fun i : Fin 16 => if i ≤ last then v i else s.x[i] }

/-- `pc <- t` (00_scope R13). -/
def State.setPc (s : State) (t : Word) : State := { s with pc := t }

/-- `Skip()` if the condition holds: a further +2, mod 65536 (42_skip R156). -/
def State.skipIf (s : State) (c : Bool) : State := s.setPc (if c then s.pc + 2#16 else s.pc)

/-- `I <- v` (00_scope R13). -/
def State.setIndex (s : State) (v : Word) : State := { s with I := v }

/-- `DT <- v` (00_scope R13). -/
def State.setDelay (s : State) (v : Byte) : State := { s with DT := v }

/-- `ST <- v` (00_scope R13). -/
def State.setSound (s : State) (v : Byte) : State := { s with ST := v }

/-! ### Reported conditions (60_exceptions R210 to R215): no trap is entered, nothing is saved -/

/-- The two-bit code of a condition (60_exceptions R211; log 6). -/
def Diag.code : Diag → BitVec 2
  | .none => 0#2
  | .stackOverflow => 1#2
  | .stackUnderflow => 2#2
  | .unknownOpcode => 3#2

/-- `report <Condition>`: drive the diagnostic output; nothing else changes (00_scope R13, 60_exceptions R212). -/
def State.report (s : State) (d : Diag) : State := { s with diag := d }

/-! ### The call stack (10_state R31, R34) -/

/-- Set the stack's slots and pointer. -/
def State.setStack (s : State) (slots : Vector Word 16) (sp : Fin 17) : State :=
  { s with stack := slots, sp := sp }

/-- Call: push `pc` and jump, or report an overflow and do nothing else (41_flow R142; log 13). -/
def State.callTo (s : State) (target : Word) : State :=
  if h : s.sp.val < 16 then
    (s.setStack (s.stack.set s.sp.val s.pc) ⟨s.sp.val + 1, by omega⟩).setPc target
  else s.report .stackOverflow

/-- Return: pop into `pc`, or report an underflow and do nothing else; the popped slot keeps its value (41_flow R140). -/
def State.returnFromCall (s : State) : State :=
  if h : 0 < s.sp.val then
    (s.setStack s.stack ⟨s.sp.val - 1, by omega⟩).setPc (s.stack[s.sp.val - 1]'(by omega))
  else s.report .stackUnderflow

/-- The live part of the stack, oldest first: a list of length `sp` (10_state R34). -/
def State.liveStack (s : State) : List Word := s.stack.toList.take s.sp.val

/-! ### The framebuffer (10_state R36, 45_display R191, R192) -/

/-- `fb[p] = 1`, with `p = y*64 + x`; no pixel exists from 2048 on. -/
def Framebuffer.pixel (fb : Framebuffer) (p : Nat) : Bool :=
  if h : p / 64 < 32 then fb[p / 64].getLsbD (p % 64) else false

/-- `fb[p] <- fb[p] ^ 1`. -/
def Framebuffer.toggle (fb : Framebuffer) (p : Nat) : Framebuffer :=
  if h : p / 64 < 32 then fb.set (p / 64) (fb[p / 64] ^^^ BitVec.twoPow 64 (p % 64)) else fb

/-- Toggle one pixel of a sprite, noting a collision when it was lit (45_display R191). -/
def drawPixel (a : Framebuffer × Bool) (p : Nat) : Framebuffer × Bool :=
  (a.1.toggle p, a.1.pixel p || a.2)

/-- Toggle the pixels in order; the second component says whether any lit pixel was turned off. -/
def drawPixels (fb : Framebuffer) (ps : List Nat) : Framebuffer × Bool :=
  ps.foldl drawPixel (fb, false)

/-- Pixel `p` of the state's framebuffer. -/
def State.pixel (s : State) (p : Nat) : Bool := s.fb.pixel p

/-- Replace the framebuffer. -/
def State.setFb (s : State) (fb : Framebuffer) : State := { s with fb := fb }

/-! ### Keys (10_state R32) -/

/-- `key[k] = 1`. -/
def State.keyDown (s : State) (k : Fin 16) : Bool := s.key.getLsbD k

/-- The least `k` with `key[k] = 1`, none when no key is down (46_timer_key R201). -/
def lowestKey (key : BitVec 16) : Option (Fin 16) :=
  (List.finRange 16).find? fun k => key.getLsbD k

/-! ### The timers (60_exceptions R216) -/

/-- One tick of one timer: down by 1 if it is not 0. -/
def countdownOnce (v : Byte) : Byte := if v.toNat > 0 then v - 1#8 else v

/-- `n` ticks of one timer, one after another. -/
def countdown : Nat → Byte → Byte
  | 0, v => v
  | n + 1, v => countdown n (countdownOnce v)

/-- `TimerTick()` (60_exceptions R216). -/
def State.timerTick (s : State) : State :=
  { s with DT := countdownOnce s.DT, ST := countdownOnce s.ST }

/-- `n` timer ticks: both timers are stepped by the same ticks (40_cycle R126, 60_exceptions R216). -/
def State.applyTicks (s : State) (n : Nat) : State :=
  { s with DT := countdown n s.DT, ST := countdown n s.ST }

end Sys2Proof.Machine
end

