-- ==== Sys2Proof/Machine/Operands.lean ====
section
/-!
DEFINITION. The operand forms: zero-extended addresses (30_encoding R93), the index-register addressing (44_index_memory
R185), the key a register names (42_skip R154), decimal digits (44_index_memory R182), a sprite's pixels (45_display
R191, R192).
-/

namespace Sys2Proof.Machine

/-- `zext_16(NNN)` (30_encoding R93). -/
def zext12 (nnn : Addr) : Word := nnn.setWidth 16

/-- `zext_16(v)` of a byte. -/
def zext8 (v : Byte) : Word := v.setWidth 16

/-- The address, before reduction mod 4096, of element `k` of an access through `I` (44_index_memory R185). -/
def State.indexAddr (s : State) (k : Nat) : Nat := s.I.toNat + k

/-- `x[X][3:0]`: the key a register's value names (42_skip R154; log 7). -/
def keyNumber (v : Byte) : Fin 16 := (v.extractLsb' 0 4).toFin

/-- Hundreds, tens and ones of a byte (44_index_memory R182). -/
def decimalDigits (v : Byte) : List Byte :=
  [BitVec.ofNat 8 (v.toNat / 100), BitVec.ofNat 8 (v.toNat / 10 % 10), BitVec.ofNat 8 (v.toNat % 10)]

/-- `x[0] .. x[last]`, ascending (44_index_memory R183). -/
def State.regsUpTo (s : State) (last : RegNum) : List Byte := s.x.toList.take (last.val + 1)

/-- The column a sprite starts in: `x[X] mod 64` (45_display R191). -/
def spriteColumn (v : Byte) : Nat := v.toNat % 64

/-- The row a sprite starts in: `x[Y] mod 32` (45_display R191). -/
def spriteRow (v : Byte) : Nat := v.toNat % 32

/-- The pixels of the sprite row `row` at screen row `yy`, start column `x0`: column `c` is bit `7 - c`, columns past
the right edge are dropped (45_display R191, R192; log 11). -/
def spriteRowPixels (x0 yy : Nat) (row : Byte) : List Nat :=
  (List.range 8).filterMap fun c =>
    if x0 + c ≤ 63 ∧ row.getLsbD (7 - c) = true then some (yy * 64 + (x0 + c)) else none

/-- The pixels a sprite covers: row `r` of it at screen row `y0 + r`, rows below the bottom edge dropped
(45_display R191). -/
def spritePixels (x0 y0 : Nat) : List Byte → List Nat
  | [] => []
  | row :: rows =>
    (if y0 ≤ 31 then spriteRowPixels x0 y0 row else []) ++ spritePixels x0 (y0 + 1) rows

end Sys2Proof.Machine
end

