-- ==== Sys2Proof/Machine/Flags.lean ====
section
/-!
DEFINITION. The flag computations: the values that go to `x[15]` (10_state R27), each computed from operands read
before any write (43_alu R172).
-/

namespace Sys2Proof.Machine

/-- A flag as `x[15]` holds it: 1 or 0. -/
def flagByte (c : Bool) : Byte := if c then 1#8 else 0#8

/-- `8XY4`: the unsigned sum is above 255 (43_alu R166). -/
def carryFlag (a b : Byte) : Byte := flagByte (decide (a.toNat + b.toNat > 255))

/-- `8XY5`, `8XY7`: `a >= b`, no borrow in `a - b` (43_alu R167, R169). -/
def noBorrowFlag (a b : Byte) : Byte := flagByte (decide (a.toNat ≥ b.toNat))

/-- `8XY6`: the bit shifted out to the right, bit 0 (43_alu R168). -/
def shiftRightFlag (b : Byte) : Byte := flagByte (b.getLsbD 0)

/-- `8XYE`: the bit shifted out to the left, bit 7 (43_alu R170). -/
def shiftLeftFlag (b : Byte) : Byte := flagByte (b.getLsbD 7)

/-- `DXYN`: a lit pixel was turned off (45_display R191). -/
def collisionFlag (hit : Bool) : Byte := flagByte hit

end Sys2Proof.Machine
end

