-- ==== Sys2Proof/Machine/Flow.lean ====
section
/-!
DEFINITION. Control transfer: 00EE, 1NNN, 2NNN, BNNN (41_flow). `pc` has already been advanced past the instruction.
-/

namespace Sys2Proof.Machine

/-- What a meaning answers. -/
abbrev Result := Host.Outcome State Fault Refusal

/-- `00EE` (41_flow R140). -/
def exec00EE (s : State) : Result := .next s.returnFromCall

/-- `1NNN` (41_flow R141). -/
def exec1NNN (nnn : Addr) (s : State) : Result := .next (s.setPc (zext12 nnn))

/-- `2NNN` (41_flow R142). -/
def exec2NNN (nnn : Addr) (s : State) : Result := .next (s.callTo (zext12 nnn))

/-- `BNNN`: the register is always `x[0]`; the sum keeps 16 bits (41_flow R143). -/
def execBNNN (nnn : Addr) (s : State) : Result := .next (s.setPc (zext8 (s.reg 0) + zext12 nnn))

end Sys2Proof.Machine
end

