-- ==== Sys2Proof/Machine/Cycle.lean ====
section
/-!
DEFINITION. The frame of a cycle (40_cycle R120 to R130): its inputs, the latch and the fetch with the default advance,
the unknown opcode, the ticks at its end.
-/

namespace Sys2Proof.Machine

/-- The inputs of the coming cycle: what the environment has scheduled, else free values (40_cycle R130; log 1). -/
def State.nextInput (s : State) : CycleInput :=
  match s.inputs with
  | inp :: _ => inp
  | [] => ⟨Config.freeKeys s.cycle, Config.freeRnd s.cycle, Config.freeTicks s.cycle⟩

/-- FETCH: the word at `pc`, big-endian (40_cycle R122). -/
def State.fetchWord (s : State) : Word := s.wordAt s.pc.toNat

/-- Everything a cycle does before execute: latch the keys and the random byte (40_cycle R121, R131), note the word and
its address for the outcome (R122, R127), clear the diagnostic (R130), advance `pc` by 2 mod 65536 (R123), close the load
port (R131; log 17), and move on to the next scheduled input. -/
def State.beginCycle (s : State) : State :=
  { s with
    key := s.nextInput.keys
    rnd := s.nextInput.rnd
    pcBefore := s.pc
    executedOpcode := s.fetchWord
    pc := s.pc + 2#16
    diag := .none
    started := true
    inputs := s.inputs.tail
    cycle := s.cycle + 1 }

/-- TIME-ACCOUNT: the cycle's ticks, after its instruction (40_cycle R126; log 21). -/
def State.endCycle (s : State) (ticks : Nat) : State := s.applyTicks ticks

/-- `UNKNOWN(word)`: reported, no other effect; `pc` was already advanced (30_encoding R103). -/
def execUnknown (_w : Word) (s : State) : Result := .next (s.report .unknownOpcode)

end Sys2Proof.Machine
end

