-- ==== Sys2Proof/Machine/Alu.lean ====
section
/-!
DEFINITION. Register load and ALU: 6XNN, 7XNN, 8XY0 to 8XYE, CXNN (43_alu). Operands are read before either write; the
result is written first and the flag last (43_alu R173; log 8).
-/

namespace Sys2Proof.Machine

/-- `6XNN` (43_alu R160). -/
def exec6XNN (x : RegNum) (nn : Byte) (s : State) : Result := .next (s.setReg x nn)

/-- `7XNN`: wraps mod 256, no flag (43_alu R161). -/
def exec7XNN (x : RegNum) (nn : Byte) (s : State) : Result := .next (s.setReg x (s.reg x + nn))

/-- `8XY0` (43_alu R162). -/
def exec8XY0 (x y : RegNum) (s : State) : Result := .next (s.setReg x (s.reg y))

/-- `8XY1`, no flag (43_alu R163; log 12). -/
def exec8XY1 (x y : RegNum) (s : State) : Result := .next (s.setReg x (s.reg x ||| s.reg y))

/-- `8XY2`, no flag (43_alu R164; log 12). -/
def exec8XY2 (x y : RegNum) (s : State) : Result := .next (s.setReg x (s.reg x &&& s.reg y))

/-- `8XY3`, no flag (43_alu R165; log 12). -/
def exec8XY3 (x y : RegNum) (s : State) : Result := .next (s.setReg x (s.reg x ^^^ s.reg y))

/-- `8XY4` (43_alu R166). -/
def exec8XY4 (x y : RegNum) (s : State) : Result :=
  .next (s.setRegThenFlag x (s.reg x + s.reg y) (carryFlag (s.reg x) (s.reg y)))

/-- `8XY5` (43_alu R167). -/
def exec8XY5 (x y : RegNum) (s : State) : Result :=
  .next (s.setRegThenFlag x (s.reg x - s.reg y) (noBorrowFlag (s.reg x) (s.reg y)))

/-- `8XY6`: the value shifted is `x[Y]` (43_alu R168). -/
def exec8XY6 (x y : RegNum) (s : State) : Result :=
  .next (s.setRegThenFlag x (s.reg y >>> 1) (shiftRightFlag (s.reg y)))

/-- `8XY7` (43_alu R169). -/
def exec8XY7 (x y : RegNum) (s : State) : Result :=
  .next (s.setRegThenFlag x (s.reg y - s.reg x) (noBorrowFlag (s.reg y) (s.reg x)))

/-- `8XYE`: the value shifted is `x[Y]` (43_alu R170). -/
def exec8XYE (x y : RegNum) (s : State) : Result :=
  .next (s.setRegThenFlag x (s.reg y <<< 1) (shiftLeftFlag (s.reg y)))

/-- `CXNN`: the random byte latched for this cycle, masked (43_alu R171; log 1). -/
def execCXNN (x : RegNum) (nn : Byte) (s : State) : Result := .next (s.setReg x (s.rnd &&& nn))

end Sys2Proof.Machine
end

