-- ==== Sys2Proof/Machine/Display.lean ====
section
/-!
DEFINITION. Framebuffer: 00E0, DXYN (45_display).
-/

namespace Sys2Proof.Machine

/-- `00E0`: every pixel 0 (45_display R190). -/
def exec00E0 (s : State) : Result := .next (s.setFb (Vector.replicate 32 0#64))

/-- Draw on the state: the framebuffer, then the collision flag in `x[15]` (45_display R191; log 10). -/
def State.draw (s : State) (x0 y0 : Nat) (rows : List Byte) : State :=
  (s.setFb (drawPixels s.fb (spritePixels x0 y0 rows)).1).setReg 15
    (collisionFlag (drawPixels s.fb (spritePixels x0 y0 rows)).2)

/-- `DXYN`: `n` sprite rows from `I`, at `(x[X] mod 64, x[Y] mod 32)` (45_display R191). -/
def execDXYN (x y : RegNum) (n : Fin 16) (s : State) : Result :=
  .next (s.draw (spriteColumn (s.reg x)) (spriteRow (s.reg y)) (s.memReadBytes (s.indexAddr 0) n.val))

end Sys2Proof.Machine
end

