-- ==== Sys2Proof/Machine/IndexMemory.lean ====
section
/-!
DEFINITION. Index register and memory: ANNN, FX1E, FX33, FX55, FX65 (44_index_memory). None of the last three changes
`I` (R185; log 12).
-/

namespace Sys2Proof.Machine

/-- `ANNN` (44_index_memory R180). -/
def execANNN (nnn : Addr) (s : State) : Result := .next (s.setIndex (zext12 nnn))

/-- `FX1E`: mod 65536, no flag (44_index_memory R181; log 12). -/
def execFX1E (x : RegNum) (s : State) : Result := .next (s.setIndex (s.I + zext8 (s.reg x)))

/-- `FX33` (44_index_memory R182). -/
def execFX33 (x : RegNum) (s : State) : Result :=
  .next (s.memWriteBytes (s.indexAddr 0) (decimalDigits (s.reg x)))

/-- `FX55` (44_index_memory R183). -/
def execFX55 (x : RegNum) (s : State) : Result :=
  .next (s.memWriteBytes (s.indexAddr 0) (s.regsUpTo x))

/-- `FX65` (44_index_memory R184). -/
def execFX65 (x : RegNum) (s : State) : Result :=
  .next (s.loadRegs x fun i => s.memRead (s.indexAddr i.val))

end Sys2Proof.Machine
end

