-- ==== Sys2Proof/Machine/Skip.lean ====
section
/-!
DEFINITION. Conditional skips: 3XNN, 4XNN, 5XY0, 9XY0, EX9E, EXA1 (42_skip).
-/

namespace Sys2Proof.Machine

/-- `3XNN` (42_skip R150). -/
def exec3XNN (x : RegNum) (nn : Byte) (s : State) : Result := .next (s.skipIf (s.reg x == nn))

/-- `4XNN` (42_skip R151). -/
def exec4XNN (x : RegNum) (nn : Byte) (s : State) : Result := .next (s.skipIf (s.reg x != nn))

/-- `5XY0` (42_skip R152). -/
def exec5XY0 (x y : RegNum) (s : State) : Result := .next (s.skipIf (s.reg x == s.reg y))

/-- `9XY0` (42_skip R153). -/
def exec9XY0 (x y : RegNum) (s : State) : Result := .next (s.skipIf (s.reg x != s.reg y))

/-- `EX9E`: the key number is the low four bits of the register's value (42_skip R154; log 7). -/
def execEX9E (x : RegNum) (s : State) : Result := .next (s.skipIf (s.keyDown (keyNumber (s.reg x))))

/-- `EXA1` (42_skip R155; log 7). -/
def execEXA1 (x : RegNum) (s : State) : Result := .next (s.skipIf (!s.keyDown (keyNumber (s.reg x))))

end Sys2Proof.Machine
end

