-- ==== Sys2Proof/Machine/TimerKey.lean ====
section
/-!
DEFINITION. Timer access and key wait: FX07, FX0A, FX15, FX18 (46_timer_key).
-/

namespace Sys2Proof.Machine

/-- `FX07`: `DT` before this cycle's ticks (46_timer_key R200). -/
def execFX07 (x : RegNum) (s : State) : Result := .next (s.setReg x s.DT)

/-- `FX0A`: with no key down, back to this instruction's own address; else the lowest key (46_timer_key R201; log 15). -/
def execFX0A (x : RegNum) (s : State) : Result :=
  .next (match lowestKey s.key with
    | none => s.setPc (s.pc - 2#16)
    | some k => s.setReg x (BitVec.ofNat 8 k.val))

/-- `FX15` (46_timer_key R202). -/
def execFX15 (x : RegNum) (s : State) : Result := .next (s.setDelay (s.reg x))

/-- `FX18` (46_timer_key R203). -/
def execFX18 (x : RegNum) (s : State) : Result := .next (s.setSound (s.reg x))

end Sys2Proof.Machine
end

