-- ==== Sys2Proof/Machine/Ports.lean ====
section
/-!
DEFINITION. The block's other ports (60_exceptions R221 to R226): reset, program load, framebuffer read, sound output.
-/

namespace Sys2Proof.Machine

/-- `rst`: every component to its reset value, the outputs cleared (70_reset R240; log 19). The environment's schedule
(the model's own fields) is not the block's and stays. -/
def State.assertReset (s : State) : State :=
  { State.reset with inputs := s.inputs, cycle := s.cycle }

/-- One write through the load port, `MemWrite(ld_addr, 1, ld_data)`, between reset and the first cycle and into
`0x200..0xFFF`; the host has no other such move (60_exceptions R225, 93_implementation_defined U13; log 17). -/
def loadByte (addr : Addr) (data : Byte) (s : State) : Result :=
  if s.started then .refused .loadAfterStart
  else if addr.toNat < Config.progOrigin then .refused (.loadBelowOrigin addr.toNat)
  else .next (s.memWrite addr.toNat data)

/-- `load_program` before the first cycle: image byte `k` to `0x200 + k`; an image over 3584 bytes, and any load after the
first cycle, is rejected before anything changes (60_exceptions R225, 70_reset R244, U12, U13; log 17). -/
def loadProgram (image : List Byte) (s : State) : Result :=
  if !imageFits image then .refused (.imageTooLarge image.length)
  else if s.started then .refused .loadAfterStart
  else .next (s.memWriteBytes Config.progOrigin image)

/-- From power-up to the first cycle: reset, then the image (70_reset R244). -/
def boot (image : List Byte) : Result := loadProgram image State.reset

/-- `fb_data` for `fb_addr = p`: `0x01` if the pixel is lit, else `0x00` (60_exceptions R223; log 5). -/
def State.fbData (s : State) (p : BitVec 11) : Byte := if s.pixel p.toNat then 0x01#8 else 0x00#8

/-- `st_value` (60_exceptions R224). -/
def State.stValue (s : State) : Byte := s.ST

/-- `tone_on = 1` iff `ST > 0` (60_exceptions R224). -/
def State.toneOn (s : State) : Bool := decide (s.ST.toNat > 0)

end Sys2Proof.Machine
end

