-- ==== Sys2Proof/Machine/Step.lean ====
section
/-!
DEFINITION. One step of the machine is one instruction cycle (40_cycle R130).
-/

namespace Sys2Proof.Machine

/-- Execute what was decoded (40_cycle R125). -/
def execDecoded (d : Decoded) (s : State) : Result :=
  match d with
  | .instr i => exec i s
  | .unknown w => execUnknown w s

/-- `Cycle(keys, rnd, ticks)` (40_cycle R130): latch, fetch and advance; decode; execute; ticks. -/
def step (s : State) : Host.Outcome State Fault Refusal :=
  match execDecoded (decode s.fetchWord) s.beginCycle with
  | .next t => .next (t.endCycle s.nextInput.ticks)
  | .fault r => .fault r
  | .refused r => .refused r

/-- `s` with the instruction whose bits are `w` stored where the next fetch reads. -/
def State.withFetchWord (s : State) (nbits w : Nat) : State :=
  s.placeWord s.pc.toNat (tableWord nbits w)

end Sys2Proof.Machine
end

