-- ==== Sys2Proof/Safety.lean ====
section
/-!
DEFINITION. The terms claims are stated in: the machine's invariant, what changed and what did not between two states,
which instructions may write which component (10_state R20, R23), and which states differ in nothing a program can see.
-/

namespace Sys2Proof.Machine

/-- The invariant of the machine: memory is in canonical form. Everything else of 10_state R41 (`sp` in 0..16, the ranges
of registers, timers and pixels) holds by the types of State. -/
def State.Inv (s : State) : Prop := s.mem.wf = true

/-! ### Frames -/

/-- Nothing changed but general registers among `rs`. -/
def OnlyRegs (s t : State) (rs : List RegNum) : Prop :=
  t = { s with x := t.x } ∧ (∀ r, r ∉ rs → t.reg r = s.reg r) ∧ ∀ a, t.memRead a = s.memRead a

/-- Nothing changed but `pc`. -/
def OnlyPc (s t : State) : Prop :=
  t = { s with pc := t.pc } ∧ (∀ r, t.reg r = s.reg r) ∧ ∀ a, t.memRead a = s.memRead a

/-- Nothing changed but `I`. -/
def OnlyIndex (s t : State) : Prop :=
  t = { s with I := t.I } ∧ (∀ r, t.reg r = s.reg r) ∧ ∀ a, t.memRead a = s.memRead a

/-- Nothing changed but the `n` bytes of memory from address `a` on, each address reduced mod 4096. -/
def OnlyBytes (s t : State) (a n : Nat) : Prop :=
  t = { s with mem := t.mem } ∧ (∀ r, t.reg r = s.reg r) ∧
    ∀ b, (∀ k, k < n → b % 4096 ≠ (a + k) % 4096) → t.memRead b = s.memRead b

/-! ### Who writes what (10_state R20, R23) -/

/-- The instructions that may write `pc` in their execute step (10_state R25). -/
def mayWritePc : Instr → Bool
  | .op00EE | .op1NNN _ | .op2NNN _ | .opBNNN _ => true
  | .op3XNN _ _ | .op4XNN _ _ | .op5XY0 _ _ | .op9XY0 _ _ | .opEX9E _ | .opEXA1 _ => true
  | .opFX0A _ => true
  | _ => false

/-- The instructions that may write memory. -/
def mayWriteMem : Instr → Bool
  | .opFX33 _ | .opFX55 _ => true
  | _ => false

/-- The instructions that may write `I`. -/
def mayWriteIndex : Instr → Bool
  | .opANNN _ | .opFX1E _ => true
  | _ => false

/-- The instruction that may write the stack's slots. -/
def mayWriteSlots : Instr → Bool
  | .op2NNN _ => true
  | _ => false

/-- The instructions that may write `sp`. -/
def mayWriteSp : Instr → Bool
  | .op2NNN _ | .op00EE => true
  | _ => false

/-- The instructions that may write the framebuffer. -/
def mayWriteFb : Instr → Bool
  | .op00E0 | .opDXYN _ _ _ => true
  | _ => false

/-- The instruction that may write `DT`. -/
def mayWriteDelay : Instr → Bool
  | .opFX15 _ => true
  | _ => false

/-- The instruction that may write `ST`. -/
def mayWriteSound : Instr → Bool
  | .opFX18 _ => true
  | _ => false

/-- The instructions that may report a condition (60_exceptions R211). -/
def mayReport : Instr → Bool
  | .op2NNN _ | .op00EE => true
  | _ => false

/-- The general registers an instruction may write (10_state R23, column "writes"). -/
def writtenRegs : Instr → List RegNum
  | .op6XNN x _ | .op7XNN x _ | .opCXNN x _ => [x]
  | .op8XY0 x _ | .op8XY1 x _ | .op8XY2 x _ | .op8XY3 x _ => [x]
  | .op8XY4 x _ | .op8XY5 x _ | .op8XY6 x _ | .op8XY7 x _ | .op8XYE x _ => [x, 15]
  | .opDXYN _ _ _ => [15]
  | .opFX07 x | .opFX0A x => [x]
  | .opFX65 x => (List.finRange 16).filter (fun r => decide (r ≤ x))
  | _ => []

/-! ### What a program can see -/

/-- The two states agree on everything but dead stack slots, those at and above `sp` (10_state R34). -/
def AgreeButDeadSlots (s t : State) : Prop :=
  t = { s with stack := t.stack } ∧ ∀ k : Fin 16, k.val < s.sp.val → t.stack[k] = s.stack[k]

/-! ### Sprites (45_display R191) -/

/-- The sprite drawn by `DXYN` has a 1 bit on pixel `(xx, yy)`: it is in one of the sprite's `n` rows and 8 columns,
counted from the start position, and its bit `7 - column` is set. -/
def spriteCovers (s : State) (x y : RegNum) (n : Fin 16) (xx yy : Nat) : Bool :=
  decide ((s.reg x).toNat % 64 ≤ xx) && decide (xx < (s.reg x).toNat % 64 + 8) &&
  decide ((s.reg y).toNat % 32 ≤ yy) && decide (yy < (s.reg y).toNat % 32 + n.val) &&
  (s.memRead (s.I.toNat + (yy - (s.reg y).toNat % 32))).getLsbD (7 - (xx - (s.reg x).toNat % 64))

end Sys2Proof.Machine
end

