-- ==== Sys2Proof/Certificates/Slice0/Obligations.lean ====
section
/-!
DEFINITION. The statements for the provers. Each docstring names the rule or section of spec/ it formalises, and the log
entries (notes/assumptions) of every model's or spec's own choice it rests on.
-/

open Sys2Proof Sys2Proof.Machine

namespace Sys2Proof.Certificates

/-- Every word with these bits under the mask decodes to the instruction made from the word's own fields. -/
def SelectedBy (mask value : Word) (f : Word → Instr) : Prop :=
  ∀ w : Word, w &&& mask = value → decode w = .instr (f w)

/-- `X << 8` in a 16-bit word. -/
def atX (r : Fin 16) : Word := BitVec.ofNat 16 r.val <<< 8

/-- `Y << 4` in a 16-bit word. -/
def atY (r : Fin 16) : Word := BitVec.ofNat 16 r.val <<< 4

/-- `N` in a 16-bit word. -/
def atN (n : Fin 16) : Word := BitVec.ofNat 16 n.val

/-- `NN` in a 16-bit word. -/
def atNN (nn : Byte) : Word := nn.setWidth 16

/-- `NNN` in a 16-bit word. -/
def atNNN (nnn : Addr) : Word := nnn.setWidth 16

/-- The bytes at `pc` and `pc + 1` are the instruction `i`. -/
def NextIs (s : State) (i : Instr) : Prop :=
  decodeBytes (s.memRead s.pc.toNat) (s.memRead (s.pc.toNat + 1)) = .instr i

end Sys2Proof.Certificates

open Sys2Proof.Certificates

/-! ### Encoding -/

/-- Decoding the canonical word of any instruction gives it back (30_encoding section 3). -/
def Obligations.DecodeInvertsEncode : Prop :=
  ∀ i : Instr, decode (encode i) = .instr i

/-- The encoder's words are the ones the family files print, `0x6000 | X << 8 | NN` and so on (41_flow to
46_timer_key, "Encoding:" of every rule). -/
def Obligations.EncodingsAreTheOrsTheFamilyFilesPrint : Prop :=
  encode .op00E0 = 0x00E0#16 ∧ encode .op00EE = 0x00EE#16 ∧
  (∀ a, encode (.op1NNN a) = 0x1000#16 ||| atNNN a) ∧ (∀ a, encode (.op2NNN a) = 0x2000#16 ||| atNNN a) ∧
  (∀ a, encode (.opANNN a) = 0xA000#16 ||| atNNN a) ∧ (∀ a, encode (.opBNNN a) = 0xB000#16 ||| atNNN a) ∧
  (∀ x b, encode (.op3XNN x b) = 0x3000#16 ||| atX x ||| atNN b) ∧
  (∀ x b, encode (.op4XNN x b) = 0x4000#16 ||| atX x ||| atNN b) ∧
  (∀ x b, encode (.op6XNN x b) = 0x6000#16 ||| atX x ||| atNN b) ∧
  (∀ x b, encode (.op7XNN x b) = 0x7000#16 ||| atX x ||| atNN b) ∧
  (∀ x b, encode (.opCXNN x b) = 0xC000#16 ||| atX x ||| atNN b) ∧
  (∀ x y, encode (.op5XY0 x y) = 0x5000#16 ||| atX x ||| atY y) ∧
  (∀ x y, encode (.op9XY0 x y) = 0x9000#16 ||| atX x ||| atY y) ∧
  (∀ x y, encode (.op8XY0 x y) = 0x8000#16 ||| atX x ||| atY y) ∧
  (∀ x y, encode (.op8XY1 x y) = 0x8001#16 ||| atX x ||| atY y) ∧
  (∀ x y, encode (.op8XY2 x y) = 0x8002#16 ||| atX x ||| atY y) ∧
  (∀ x y, encode (.op8XY3 x y) = 0x8003#16 ||| atX x ||| atY y) ∧
  (∀ x y, encode (.op8XY4 x y) = 0x8004#16 ||| atX x ||| atY y) ∧
  (∀ x y, encode (.op8XY5 x y) = 0x8005#16 ||| atX x ||| atY y) ∧
  (∀ x y, encode (.op8XY6 x y) = 0x8006#16 ||| atX x ||| atY y) ∧
  (∀ x y, encode (.op8XY7 x y) = 0x8007#16 ||| atX x ||| atY y) ∧
  (∀ x y, encode (.op8XYE x y) = 0x800E#16 ||| atX x ||| atY y) ∧
  (∀ x y n, encode (.opDXYN x y n) = 0xD000#16 ||| atX x ||| atY y ||| atN n) ∧
  (∀ x, encode (.opEX9E x) = 0xE09E#16 ||| atX x) ∧ (∀ x, encode (.opEXA1 x) = 0xE0A1#16 ||| atX x) ∧
  (∀ x, encode (.opFX07 x) = 0xF007#16 ||| atX x) ∧ (∀ x, encode (.opFX0A x) = 0xF00A#16 ||| atX x) ∧
  (∀ x, encode (.opFX15 x) = 0xF015#16 ||| atX x) ∧ (∀ x, encode (.opFX18 x) = 0xF018#16 ||| atX x) ∧
  (∀ x, encode (.opFX1E x) = 0xF01E#16 ||| atX x) ∧ (∀ x, encode (.opFX33 x) = 0xF033#16 ||| atX x) ∧
  (∀ x, encode (.opFX55 x) = 0xF055#16 ||| atX x) ∧ (∀ x, encode (.opFX65 x) = 0xF065#16 ||| atX x)

/-- A word decodes to an instruction of a row exactly when it matches the row's mask and match (30_encoding section 3;
the masks carry the spec's decisions D5 and D6, log 9). -/
def Obligations.DecodeSelectsTheRowTheWordMatches : Prop :=
  ∀ w : Word,
    (∀ i, decode w = .instr i → w &&& (rowOf i).mask = (rowOf i).value) ∧
    (∀ i, w &&& (rowOf i).mask = (rowOf i).value → ∃ j, decode w = .instr j ∧ rowOf j = rowOf i)

/-- The unknown opcodes are exactly the words of the list of 30_encoding section 4, reported with their own word (the
list carries the spec's decisions D6 and D8, log 9, 20). -/
def Obligations.UnknownOpcodesAreExactlyTheListedWords : Prop :=
  ∀ w : Word,
    (decode w = .unknown w ↔
      (classField w = 0x0#4 ∧ nnField w ∉ [0xE0#8, 0xEE#8]) ∨
      (classField w = 0x8#4 ∧ nField w ∈ [0x8#4, 0x9#4, 0xA#4, 0xB#4, 0xC#4, 0xD#4, 0xF#4]) ∨
      (classField w = 0xE#4 ∧ nnField w ∉ [0x9E#8, 0xA1#8]) ∨
      (classField w = 0xF#4 ∧
        nnField w ∉ [0x07#8, 0x0A#8, 0x15#8, 0x18#8, 0x1E#8, 0x33#8, 0x55#8, 0x65#8])) ∧
    (∀ v, decode w = .unknown v → v = w)

/-- The encoder gives back a decoded word exactly when the word is canonical: `X = 0` in class 0, `N = 0` in classes 5 and
9 (30_encoding section 3; the spec's decisions D5 and D6, log 9). -/
def Obligations.CanonicalWordsAreTheEncodersWords : Prop :=
  ∀ (w : Word) (i : Instr), decode w = .instr i → (encode i = w ↔ canonicalWord w = true)

/-- The decoder's fields are slices of one word (30_encoding R94). -/
def Obligations.FieldsAreSlicesOfOneWord : Prop :=
  ∀ w : Word,
    nnnField w = ((BitVec.ofNat 12 (xField w).val <<< 8) ||| (BitVec.ofNat 12 (yField w).val <<< 4) |||
      (nField w).setWidth 12) &&& 0xFFF#12 ∧
    nnField w = (BitVec.ofNat 8 (yField w).val <<< 4) ||| (nField w).setWidth 8 ∧
    w = ((classField w).setWidth 16 <<< 12) ||| (nnnField w).setWidth 16 ∧
    ((∃ i, decode w = .instr i) ∨ decode w = .unknown w)

/-- Sample words written out from the encodings decode to what they stand for, one or more of each family, words with
ignored bits set among them (30_encoding section 3; log 9 for the last three). -/
def Obligations.SampleWordsOfEveryFamilyDecode : Prop :=
  decode 0x00E0#16 = .instr .op00E0 ∧ decode 0x2ABC#16 = .instr (.op2NNN 0xABC#12) ∧
  decode 0x4311#16 = .instr (.op4XNN 3 0x11#8) ∧ decode 0x8AF6#16 = .instr (.op8XY6 10 15) ∧
  decode 0xF265#16 = .instr (.opFX65 2) ∧ decode 0xD123#16 = .instr (.opDXYN 1 2 3) ∧
  decode 0xF10A#16 = .instr (.opFX0A 1) ∧ decode 0xC1FF#16 = .instr (.opCXNN 1 0xFF#8) ∧
  decode 0x0FEE#16 = .instr .op00EE ∧ decode 0x5127#16 = .instr (.op5XY0 1 2) ∧ decode 0xF029#16 = .unknown 0xF029#16

/-! ### The cycle -/

/-- Before execute a cycle latches the keys, fetches big-endian at `pc` as memory is now, and advances `pc` by 2; nothing
else changes but the cleared diagnostic, the random latch, the held outputs, the closed load port and the model's own two
fields (40_cycle sections 1 and 2; the random latch is log 3, the held outputs log 6, the load port log 17, the model's own
fields log 1). -/
def Obligations.CycleLatchesKeysFetchesAndAdvances : Prop :=
  ∀ s : State,
    s.beginCycle.key = s.nextInput.keys ∧
    s.beginCycle.pcBefore = s.pc ∧
    s.fetchWord = (s.mem.read (s.pc.toNat % 4096) ++ s.mem.read ((s.pc.toNat + 1) % 4096) : Word) ∧
    s.beginCycle.executedOpcode = s.fetchWord ∧
    s.beginCycle.pc.toNat = (s.pc.toNat + 2) % 65536 ∧
    s.beginCycle = { s with
      key := s.beginCycle.key, pc := s.beginCycle.pc, pcBefore := s.pc, executedOpcode := s.fetchWord,
      rnd := s.nextInput.rnd, diag := .none, started := true, inputs := s.inputs.tail, cycle := s.cycle + 1 }

/-- When the bytes at `pc` decode to an instruction, a step is its execution on the latched and advanced state, then the
cycle's ticks; the inputs are the scheduled ones, else free values (40_cycle section 2; log 1, 6, 17, 21). -/
def Obligations.StepRunsTheDecodedInstruction : Prop :=
  (∀ (s t : State) (i : Instr), NextIs s i →
    exec i { s with
      key := s.nextInput.keys, rnd := s.nextInput.rnd, pcBefore := s.pc,
      executedOpcode := joinBytes (s.memRead s.pc.toNat) (s.memRead (s.pc.toNat + 1)),
      pc := s.pc + 2#16, diag := .none, started := true, inputs := s.inputs.tail, cycle := s.cycle + 1 } = .next t →
    step s = .next { t with
      DT := countdown s.nextInput.ticks t.DT, ST := countdown s.nextInput.ticks t.ST }) ∧
  (∀ (s : State) (inp : CycleInput) (rest : List CycleInput), s.inputs = inp :: rest → s.nextInput = inp) ∧
  (∀ s : State, s.inputs = [] →
    s.nextInput = ⟨Config.freeKeys s.cycle, Config.freeRnd s.cycle, Config.freeTicks s.cycle⟩)

/-- An unknown opcode only advances `pc` and is reported; a tick can still follow it (30_encoding section 4; the report is
the spec's decision D7, log 6; the load port closes, log 17). -/
def Obligations.StepOnAnUnknownOpcodeOnlyAdvances : Prop :=
  ∀ (s : State) (w : Word),
    decodeBytes (s.memRead s.pc.toNat) (s.memRead (s.pc.toNat + 1)) = .unknown w →
    step s = .next { s with
      pc := s.pc + 2#16, diag := .unknownOpcode, started := true, executedOpcode := w, pcBefore := s.pc,
      key := s.nextInput.keys, rnd := s.nextInput.rnd, inputs := s.inputs.tail, cycle := s.cycle + 1,
      DT := countdown s.nextInput.ticks s.DT, ST := countdown s.nextInput.ticks s.ST }

/-- Fetch is big-endian and each byte's address is reduced mod 4096 on its own (20_memory R60, R64). -/
def Obligations.FetchIsBigEndianAndWraps : Prop :=
  ∀ s : State,
    s.fetchWord.extractLsb' 8 8 = s.mem.read (s.pc.toNat % 4096) ∧
    s.fetchWord.extractLsb' 0 8 = s.mem.read ((s.pc.toNat + 1) % 4096) ∧
    (s.pc.toNat % 4096 = 0xFFF → s.fetchWord = (s.mem.read 0xFFF ++ s.mem.read 0 : Word))

/-- However many cycles run, from whatever state, the machine never stops with a fault or a refusal (40_cycle sections 1
to 3). -/
def Obligations.NoRunEverStops : Prop :=
  ∀ (n : Nat) (s : State), ∃ t, Host.Core.run Sys2Proof.core n s = .next t

/-- Memory, `I`, the stack, the framebuffer, the timers and `pc` are written by no instruction but those the spec lists for
each, the stack's slots by 2NNN alone; the keys, the inputs and the cycle outcome by none; only 2NNN and 00EE report (10_state sections 1 and 3; where the
source lists no effect this is the spec's decisions D15 and D26, log 12). -/
def Obligations.OnlyTheListedInstructionsWriteAComponent : Prop :=
  ∀ (i : Instr) (s t : State), exec i s = .next t →
    (mayWritePc i = false → t.pc = s.pc) ∧
    (mayWriteMem i = false → ∀ a, t.memRead a = s.memRead a) ∧
    (mayWriteIndex i = false → t.I = s.I) ∧
    (mayWriteSlots i = false → t.stack = s.stack) ∧
    (mayWriteSp i = false → t.sp = s.sp) ∧
    (mayWriteFb i = false → t.fb = s.fb) ∧
    (mayWriteDelay i = false → t.DT = s.DT) ∧
    (mayWriteSound i = false → t.ST = s.ST) ∧
    (mayReport i = false → t.diag = s.diag) ∧
    t.key = s.key ∧ t.rnd = s.rnd ∧ t.executedOpcode = s.executedOpcode ∧ t.pcBefore = s.pcBefore ∧
    t.started = s.started ∧ t.inputs = s.inputs ∧ t.cycle = s.cycle

/-- A general register that is not in the instruction's column "writes" keeps its value (10_state section 2; that logic
operations and FX1E write no flag is the spec's decisions D16 and D26, log 12). -/
def Obligations.OnlyTheListedRegistersAreWritten : Prop :=
  ∀ (i : Instr) (s t : State) (r : RegNum),
    exec i s = .next t → r ∉ writtenRegs i → t.reg r = s.reg r

/-- The random byte is consumed by CXNN only: to every other instruction it makes no difference (43_alu section 6; the
free draw is the spec's decision D4, log 1). -/
def Obligations.OnlyCXNNDependsOnTheRandomByte : Prop :=
  ∀ (i : Instr) (s t : State) (v : Byte), (∀ x nn, i ≠ .opCXNN x nn) → exec i s = .next t →
    exec i { s with rnd := v } = .next { t with rnd := v }

/-- Dead stack slots are unobservable: two states that differ in nothing else step to two states that differ in nothing
else (10_state section 6; that the slots exist and keep their value is the spec's decision D18, log 4). -/
def Obligations.DeadStackSlotsAreUnobservable : Prop :=
  ∀ s t : State, AgreeButDeadSlots s t →
    ∃ u v, step s = .next u ∧ step t = .next v ∧ AgreeButDeadSlots u v

/-- A call followed immediately by a return comes back to the instruction after the call with the stack as it was
(41_flow; 95_test_vectors Part 1 S6). -/
def Obligations.CallThenReturnComesBack : Prop :=
  ∀ (s : State) (nnn : Addr), s.sp.val < 16 → NextIs s (.op2NNN nnn) →
    decodeBytes (s.memRead nnn.toNat) (s.memRead (nnn.toNat + 1)) = .instr .op00EE →
    ∃ t u, step s = .next t ∧ step t = .next u ∧
      t.pc.toNat = nnn.toNat ∧ t.sp.val = s.sp.val + 1 ∧ t.liveStack = s.liveStack ++ [s.pc + 2#16] ∧
      u.pc = s.pc + 2#16 ∧ u.sp = s.sp ∧ u.liveStack = s.liveStack ∧ u.x = s.x ∧ u.mem = s.mem ∧ u.fb = s.fb

/-- While no key is pressed FX0A repeats for any number of cycles, changing no register and no memory, with the timers
ticking; each cycle shows the same word and address (46_timer_key; 95_test_vectors Part 1 S7; log 15). -/
def Obligations.WaitForKeyRepeatsUntilAKeyIsDown : Prop :=
  ∀ (n : Nat) (s : State) (x : RegNum), NextIs s (.opFX0A x) → n ≤ s.inputs.length →
    (∀ inp ∈ s.inputs.take n, inp.keys = 0#16) →
    ∃ t, Host.Core.run Sys2Proof.core n s = .next t ∧ t.pc = s.pc ∧ t.x = s.x ∧ t.mem = s.mem ∧
      t.fb = s.fb ∧ t.I = s.I ∧ t.stack = s.stack ∧ t.sp = s.sp ∧ t.inputs = s.inputs.drop n ∧
      t.DT.toNat = s.DT.toNat - ((s.inputs.take n).map CycleInput.ticks).sum ∧
      t.ST.toNat = s.ST.toNat - ((s.inputs.take n).map CycleInput.ticks).sum ∧
      (0 < n → t.executedOpcode = s.fetchWord ∧ t.pcBefore = s.pc)

/-- A word stored by FX55 at `pc` is the word the next fetch reads (20_memory section 8). -/
def Obligations.StoredCodeIsFetchedAtOnce : Prop :=
  ∀ (s : State) (x : RegNum), 1 ≤ x.val → s.I.toNat % 4096 = s.pc.toNat % 4096 →
    ∃ t, exec (.opFX55 x) s = .next t ∧ t.pc = s.pc ∧ t.fetchWord = joinBytes (s.reg 0) (s.reg 1)

/-! ### Invariant -/

/-- Every step keeps memory in its canonical form (the model's form of 20_memory section 9; log 16). -/
def Obligations.StepKeepsMemoryCanonical : Prop :=
  ∀ s t : State, s.Inv → step s = .next t → t.Inv

/-- Memory is canonical after reset (10_state section 9; log 16). -/
def Obligations.ResetMemoryIsCanonical : Prop :=
  State.reset.Inv

/-- Two canonical memories that read the same at every address are equal data (the model's form of memory, log 16). -/
def Obligations.CanonicalMemoriesThatReadEqualAreEqual : Prop :=
  ∀ m k : Memory, m.wf = true → k.wf = true → (∀ a, a < 4096 → m.read a = k.read a) → m = k

/-! ### Timers -/

/-- One tick: each timer goes down by 1 unless it is 0, and nothing else changes (60_exceptions section 5). -/
def Obligations.TickDecrementsEachTimerToAFloorOfZero : Prop :=
  ∀ s : State,
    s.timerTick.DT.toNat = (if s.DT.toNat > 0 then s.DT.toNat - 1 else 0) ∧
    s.timerTick.ST.toNat = (if s.ST.toNat > 0 then s.ST.toNat - 1 else 0) ∧
    s.timerTick = { s with DT := s.timerTick.DT, ST := s.timerTick.ST }

/-- The ticks of a cycle are that many ticks one after another, and take each timer down by their number, never below 0
(40_cycle section 1, 60_exceptions section 5; log 21). -/
def Obligations.TicksOfACycleAreAppliedOneAfterAnother : Prop :=
  ∀ (n : Nat) (s : State),
    s.endCycle n = (State.timerTick^[n]) s ∧
    (s.endCycle n).DT.toNat = s.DT.toNat - n ∧ (s.endCycle n).ST.toNat = s.ST.toNat - n

/-- The instruction comes first and the ticks of its cycle second: FX07 reads the value before them, a value written by
FX15 or FX18 is decremented by them (40_cycle section 1; the order is the spec's decision D27, log 21). -/
def Obligations.TicksComeAfterTheInstruction : Prop :=
  ∀ (s : State) (x : RegNum),
    (NextIs s (.opFX07 x) → ∃ t, step s = .next t ∧ t.reg x = s.DT ∧ t.DT.toNat = s.DT.toNat - s.nextInput.ticks) ∧
    (NextIs s (.opFX15 x) → ∃ t, step s = .next t ∧ t.DT.toNat = (s.reg x).toNat - s.nextInput.ticks) ∧
    (NextIs s (.opFX18 x) → ∃ t, step s = .next t ∧ t.ST.toNat = (s.reg x).toNat - s.nextInput.ticks)

/-! ### Reset, load, outputs -/

/-- After reset every component is zero but `pc`, which is `0x0200` (10_state R40). -/
def Obligations.ResetZeroesAllButPc : Prop :=
  (∀ a, State.reset.memRead a = 0#8) ∧ State.reset.pc = 0x0200#16 ∧ State.reset.I = 0#16 ∧
  (∀ k : Fin 16, State.reset.stack[k] = 0#16) ∧ State.reset.sp = 0 ∧ State.reset.DT = 0#8 ∧ State.reset.ST = 0#8 ∧
  (∀ r, State.reset.reg r = 0#8) ∧ (∀ p, State.reset.pixel p = false) ∧ State.reset.key = 0#16

/-- Asserting reset in any state puts every component to its reset value and clears the outputs (70_reset_and_hazards
section 1; the outputs are the spec's decision D25, log 19). -/
def Obligations.ResetFromAnyStateClearsEverything : Prop :=
  ∀ s : State,
    (∀ a, s.assertReset.memRead a = 0#8) ∧ s.assertReset.pc = 0x0200#16 ∧ s.assertReset.I = 0#16 ∧
    (∀ k : Fin 16, s.assertReset.stack[k] = 0#16) ∧ s.assertReset.sp = 0 ∧
    s.assertReset.DT = 0#8 ∧ s.assertReset.ST = 0#8 ∧ (∀ r, s.assertReset.reg r = 0#8) ∧
    (∀ p, s.assertReset.pixel p = false) ∧ s.assertReset.key = 0#16 ∧
    s.assertReset.diag = .none ∧ s.assertReset.executedOpcode = 0#16 ∧ s.assertReset.pcBefore = 0#16 ∧
    s.assertReset.toneOn = false ∧ s.assertReset.stValue = 0#8 ∧ (∀ p, s.assertReset.fbData p = 0#8) ∧
    s.assertReset.started = false ∧ s.assertReset.inputs = s.inputs ∧ s.assertReset.cycle = s.cycle

/-- `MemRead` and `MemWrite` at every natural number address: a write sets the byte at `a mod 4096` to `v mod 256` and
changes nothing else (20_memory R77). -/
def Obligations.MemoryReadsWhatWasWritten : Prop :=
  ∀ (s : State) (a b v : Nat),
    s.memRead a = s.memRead (a % 4096) ∧
    (s.memWrite a (BitVec.ofNat 8 v)).memRead a = BitVec.ofNat 8 (v % 256) ∧
    (b % 4096 ≠ a % 4096 → (s.memWrite a (BitVec.ofNat 8 v)).memRead b = s.memRead b) ∧
    s.memWrite a (BitVec.ofNat 8 v) = { s with mem := (s.memWrite a (BitVec.ofNat 8 v)).mem }

/-- Loading a program before the first cycle: byte `k` of an image of at most 3584 bytes lands at `0x200 + k`, nothing else
changes; a longer image, and a load after the first cycle, is rejected before anything changes; from power-up the load
starts at the reset state (60_exceptions section 7, 70_reset_and_hazards section 2; the port's discipline is the spec's
decision D22, the refusals are the model's, log 17). -/
def Obligations.LoadPlacesTheImageOrRejectsIt : Prop :=
  ∀ (image : List Byte) (s : State),
    (image.length ≤ 3584 → s.started = false → ∃ t, loadProgram image s = .next t ∧ t = { s with mem := t.mem } ∧
      (∀ (k : Nat) (h : k < image.length), t.memRead (0x200 + k) = image[k]) ∧
      (∀ a, a < 4096 → (a < 0x200 ∨ 0x200 + image.length ≤ a) → t.memRead a = s.memRead a)) ∧
    (3584 < image.length → loadProgram image s = .refused (.imageTooLarge image.length)) ∧
    (image.length ≤ 3584 → s.started = true → loadProgram image s = .refused .loadAfterStart) ∧
    boot image = loadProgram image State.reset

/-- The framebuffer port shows a lit pixel of column `xx`, row `yy` as 1 and an unlit one as 0; `st_value` is `ST` and the
tone is on exactly while `ST` is not 0 (60_exceptions section 7; the bytes 0 and 1 are the spec's decision D12, log 5). -/
def Obligations.OutputPortsShowPixelsAndTone : Prop :=
  ∀ s : State,
    (∀ xx yy : Nat, xx < 64 → yy < 32 →
      ((s.fbData (BitVec.ofNat 11 (yy * 64 + xx))).toNat = 1 ↔ s.pixel (yy * 64 + xx) = true) ∧
      ((s.fbData (BitVec.ofNat 11 (yy * 64 + xx))).toNat = 0 ↔ s.pixel (yy * 64 + xx) = false)) ∧
    s.stValue = s.ST ∧ (s.toneOn = true ↔ s.ST ≠ 0#8)

/-! ### Control transfer -/

/-- 00EE pops the top of the stack into `pc`, all 16 bits of it; with an empty stack it is a no-op that is reported
(41_flow, 60_exceptions section 1; the code is the spec's decision D23, that the slot keeps its value D18, log 4, 6). -/
def Obligations.ReturnPopsOrReportsUnderflow : Prop :=
  ∀ s : State,
    (0 < s.sp.val → ∃ t, exec .op00EE s = .next t ∧ t.sp.val = s.sp.val - 1 ∧
      s.liveStack = t.liveStack ++ [t.pc] ∧ t = { s with pc := t.pc, sp := t.sp } ∧
      (∀ r, t.reg r = s.reg r) ∧ ∀ a, t.memRead a = s.memRead a) ∧
    (s.sp.val = 0 → exec .op00EE s = .next { s with diag := .stackUnderflow })

/-- 1NNN jumps to the absolute address NNN (41_flow R141). -/
def Obligations.JumpGoesToNNN : Prop :=
  SelectedBy 0xF000#16 0x1000#16 (fun w => .op1NNN (nnnField w)) ∧
  ∀ (s : State) (nnn : Addr), ∃ t, exec (.op1NNN nnn) s = .next t ∧ t.pc.toNat = nnn.toNat ∧ OnlyPc s t

/-- 2NNN pushes the address of the next instruction and jumps; with a full stack it is a no-op that is reported, and the
call is not taken (41_flow, 60_exceptions section 1; the spec's decisions D17 and D23, log 6, 13). -/
def Obligations.CallPushesOrReportsOverflow : Prop :=
  ∀ (s : State) (nnn : Addr),
    (s.sp.val < 16 → ∃ t, exec (.op2NNN nnn) s = .next t ∧ t.pc.toNat = nnn.toNat ∧
      t.sp.val = s.sp.val + 1 ∧ t.liveStack = s.liveStack ++ [s.pc] ∧
      t = { s with pc := t.pc, sp := t.sp, stack := t.stack } ∧
      (∀ r, t.reg r = s.reg r) ∧ ∀ a, t.memRead a = s.memRead a) ∧
    (s.sp.val = 16 → exec (.op2NNN nnn) s = .next { s with diag := .stackOverflow })

/-- BNNN jumps to x[0] + NNN; the sum does not wrap (41_flow); that `pc` keeps all 16 bits of it is the spec's decision D20,
log 14. -/
def Obligations.JumpWithOffsetAddsRegisterZero : Prop :=
  SelectedBy 0xF000#16 0xB000#16 (fun w => .opBNNN (nnnField w)) ∧
  ∀ (s : State) (nnn : Addr), ∃ t, exec (.opBNNN nnn) s = .next t ∧
    t.pc.toNat = (s.reg 0).toNat + nnn.toNat ∧ OnlyPc s t

/-! ### Skips -/

/-- 3XNN skips when the register equals NN, 4XNN when it differs; nothing else changes (42_skip R150, R151). -/
def Obligations.SkipOnImmediate : Prop :=
  SelectedBy 0xF000#16 0x3000#16 (fun w => .op3XNN (xField w) (nnField w)) ∧
  SelectedBy 0xF000#16 0x4000#16 (fun w => .op4XNN (xField w) (nnField w)) ∧
  ∀ (s : State) (x : RegNum) (nn : Byte),
    (∃ t, exec (.op3XNN x nn) s = .next t ∧ OnlyPc s t ∧
      t.pc.toNat = if s.reg x = nn then (s.pc.toNat + 2) % 65536 else s.pc.toNat) ∧
    (∃ t, exec (.op4XNN x nn) s = .next t ∧ OnlyPc s t ∧
      t.pc.toNat = if s.reg x = nn then s.pc.toNat else (s.pc.toNat + 2) % 65536)

/-- 5XY0 skips when the registers are equal, 9XY0 when they differ, whatever the word's low nibble is (42_skip; that the
nibble is ignored is the spec's decision D5, log 9). -/
def Obligations.SkipOnRegisters : Prop :=
  SelectedBy 0xF000#16 0x5000#16 (fun w => .op5XY0 (xField w) (yField w)) ∧
  SelectedBy 0xF000#16 0x9000#16 (fun w => .op9XY0 (xField w) (yField w)) ∧
  ∀ (s : State) (x y : RegNum),
    (∃ t, exec (.op5XY0 x y) s = .next t ∧ OnlyPc s t ∧
      t.pc.toNat = if s.reg x = s.reg y then (s.pc.toNat + 2) % 65536 else s.pc.toNat) ∧
    (∃ t, exec (.op9XY0 x y) s = .next t ∧ OnlyPc s t ∧
      t.pc.toNat = if s.reg x = s.reg y then s.pc.toNat else (s.pc.toNat + 2) % 65536)

/-- EX9E skips when the key named by the low four bits of the register is down, EXA1 when it is up (42_skip; the low four
bits are the spec's decision D13, log 7). -/
def Obligations.SkipOnKey : Prop :=
  ∀ (s : State) (x : RegNum),
    (∃ t, exec (.opEX9E x) s = .next t ∧ OnlyPc s t ∧
      t.pc.toNat = if s.key.getLsbD ((s.reg x).toNat % 16) = true then (s.pc.toNat + 2) % 65536 else s.pc.toNat) ∧
    (∃ t, exec (.opEXA1 x) s = .next t ∧ OnlyPc s t ∧
      t.pc.toNat = if s.key.getLsbD ((s.reg x).toNat % 16) = true then s.pc.toNat else (s.pc.toNat + 2) % 65536)

/-! ### Loads and ALU -/

/-- 6XNN loads NN (43_alu R160). -/
def Obligations.LoadImmediate : Prop :=
  SelectedBy 0xF000#16 0x6000#16 (fun w => .op6XNN (xField w) (nnField w)) ∧
  ∀ (s : State) (x : RegNum) (nn : Byte), ∃ t, exec (.op6XNN x nn) s = .next t ∧ t.reg x = nn ∧ OnlyRegs s t [x]

/-- 7XNN adds NN mod 256 and sets no flag (43_alu R161). -/
def Obligations.AddImmediateWrapsWithoutFlag : Prop :=
  SelectedBy 0xF000#16 0x7000#16 (fun w => .op7XNN (xField w) (nnField w)) ∧
  ∀ (s : State) (x : RegNum) (nn : Byte), ∃ t, exec (.op7XNN x nn) s = .next t ∧
    (t.reg x).toNat = ((s.reg x).toNat + nn.toNat) % 256 ∧ OnlyRegs s t [x]

/-- 8XY0 copies a register (43_alu R162). -/
def Obligations.CopyRegister : Prop :=
  SelectedBy 0xF00F#16 0x8000#16 (fun w => .op8XY0 (xField w) (yField w)) ∧
  ∀ (s : State) (x y : RegNum), ∃ t, exec (.op8XY0 x y) s = .next t ∧ t.reg x = s.reg y ∧ OnlyRegs s t [x]

/-- 8XY1, 8XY2, 8XY3 combine two registers bit by bit and write no flag (43_alu section 3; that x[15] is not written is the
spec's decision D16, log 12). -/
def Obligations.BitwiseOperationsWriteNoFlag : Prop :=
  ∀ (s : State) (x y : RegNum),
    (∃ t, exec (.op8XY1 x y) s = .next t ∧ OnlyRegs s t [x] ∧
      ∀ b, (t.reg x).getLsbD b = ((s.reg x).getLsbD b || (s.reg y).getLsbD b)) ∧
    (∃ t, exec (.op8XY2 x y) s = .next t ∧ OnlyRegs s t [x] ∧
      ∀ b, (t.reg x).getLsbD b = ((s.reg x).getLsbD b && (s.reg y).getLsbD b)) ∧
    (∃ t, exec (.op8XY3 x y) s = .next t ∧ OnlyRegs s t [x] ∧
      ∀ b, (t.reg x).getLsbD b = ((s.reg x).getLsbD b ^^ (s.reg y).getLsbD b))

/-- 8XY4 adds mod 256 and sets x[15] to the carry, last: with X = 15 the carry stays (43_alu section 4; the order is the
spec's decision D9, log 8). -/
def Obligations.AddSetsCarry : Prop :=
  ∀ (s : State) (x y : RegNum), ∃ t, exec (.op8XY4 x y) s = .next t ∧ OnlyRegs s t [x, 15] ∧
    (x ≠ 15 → (t.reg x).toNat = ((s.reg x).toNat + (s.reg y).toNat) % 256) ∧
    (t.reg 15).toNat = if (s.reg x).toNat + (s.reg y).toNat > 255 then 1 else 0

/-- 8XY5 and 8XY7 subtract mod 256 and set x[15] to not-borrow, last: with X = 15 the flag stays (43_alu section 4; the
order is the spec's decision D9, log 8). -/
def Obligations.SubtractSetsNotBorrow : Prop :=
  ∀ (s : State) (x y : RegNum),
    (∃ t, exec (.op8XY5 x y) s = .next t ∧ OnlyRegs s t [x, 15] ∧
      (x ≠ 15 → ((t.reg x).toNat : Int) = ((s.reg x).toNat - (s.reg y).toNat : Int) % 256) ∧
      (t.reg 15).toNat = if (s.reg x).toNat ≥ (s.reg y).toNat then 1 else 0) ∧
    (∃ t, exec (.op8XY7 x y) s = .next t ∧ OnlyRegs s t [x, 15] ∧
      (x ≠ 15 → ((t.reg x).toNat : Int) = ((s.reg y).toNat - (s.reg x).toNat : Int) % 256) ∧
      (t.reg 15).toNat = if (s.reg y).toNat ≥ (s.reg x).toNat then 1 else 0)

/-- 8XY6 and 8XYE shift x[Y], not x[X], by one and set x[15] to the bit shifted out, last: with X = 15 the bit stays
(43_alu section 5; the order is the spec's decision D9, log 8). -/
def Obligations.ShiftsTakeTheSourceFromVy : Prop :=
  ∀ (s : State) (x y : RegNum),
    (∃ t, exec (.op8XY6 x y) s = .next t ∧ OnlyRegs s t [x, 15] ∧
      (x ≠ 15 → (t.reg x).toNat = (s.reg y).toNat / 2) ∧ (t.reg 15).toNat = (s.reg y).toNat % 2) ∧
    (∃ t, exec (.op8XYE x y) s = .next t ∧ OnlyRegs s t [x, 15] ∧
      (x ≠ 15 → (t.reg x).toNat = (s.reg y).toNat * 2 % 256) ∧ (t.reg 15).toNat = (s.reg y).toNat / 128)

/-- CXNN loads the masked random byte of the cycle, about which nothing is known but that the mask bounds it (43_alu
section 6; the free draw is the spec's decision D4, log 1). -/
def Obligations.RandomByteIsMasked : Prop :=
  ∀ (s : State) (x : RegNum) (nn : Byte), ∃ t, exec (.opCXNN x nn) s = .next t ∧ OnlyRegs s t [x] ∧
    (∀ b, (t.reg x).getLsbD b = (s.rnd.getLsbD b && nn.getLsbD b)) ∧ (t.reg x).toNat ≤ nn.toNat

/-! ### Index register and memory -/

/-- ANNN loads the index register (44_index_memory R180). -/
def Obligations.LoadIndex : Prop :=
  SelectedBy 0xF000#16 0xA000#16 (fun w => .opANNN (nnnField w)) ∧
  ∀ (s : State) (nnn : Addr), ∃ t, exec (.opANNN nnn) s = .next t ∧ t.I.toNat = nnn.toNat ∧ OnlyIndex s t

/-- FX1E adds a register to the index register mod 65536 and writes no flag (44_index_memory; no flag is the spec's
decision D26, log 12). -/
def Obligations.AddToIndexWrapsWithoutFlag : Prop :=
  ∀ (s : State) (x : RegNum), ∃ t, exec (.opFX1E x) s = .next t ∧
    t.I.toNat = (s.I.toNat + (s.reg x).toNat) % 65536 ∧ OnlyIndex s t

/-- FX33 stores hundreds, tens and ones at I, I + 1, I + 2, each address reduced mod 4096, and nothing else changes
(44_index_memory; that `I` is unchanged is the spec's decision D15, log 12). -/
def Obligations.StoreDecimalDigits : Prop :=
  SelectedBy 0xF0FF#16 0xF033#16 (fun w => .opFX33 (xField w)) ∧
  ∀ (s : State) (x : RegNum), ∃ t, exec (.opFX33 x) s = .next t ∧
    (t.memRead s.I.toNat).toNat = (s.reg x).toNat / 100 ∧
    (t.memRead (s.I.toNat + 1)).toNat = (s.reg x).toNat / 10 % 10 ∧
    (t.memRead (s.I.toNat + 2)).toNat = (s.reg x).toNat % 10 ∧
    OnlyBytes s t s.I.toNat 3

/-- FX55 stores registers 0 to X at I upward, each address reduced mod 4096, and nothing else changes
(44_index_memory; that `I` is unchanged is the spec's decision D15, log 12). -/
def Obligations.StoreRegisters : Prop :=
  SelectedBy 0xF0FF#16 0xF055#16 (fun w => .opFX55 (xField w)) ∧
  ∀ (s : State) (x : RegNum), ∃ t, exec (.opFX55 x) s = .next t ∧
    (∀ i : RegNum, i ≤ x → t.memRead (s.I.toNat + i.val) = s.reg i) ∧
    OnlyBytes s t s.I.toNat (x.val + 1)

/-- FX65 loads registers 0 to X from I upward and changes nothing else (44_index_memory; that `I` is unchanged is the spec's
decision D15, log 12). -/
def Obligations.LoadRegisters : Prop :=
  SelectedBy 0xF0FF#16 0xF065#16 (fun w => .opFX65 (xField w)) ∧
  ∀ (s : State) (x : RegNum), ∃ t, exec (.opFX65 x) s = .next t ∧
    (∀ i : RegNum, i ≤ x → t.reg i = s.memRead (s.I.toNat + i.val)) ∧
    (∀ i : RegNum, x < i → t.reg i = s.reg i) ∧
    t = { s with x := t.x } ∧ ∀ a, t.memRead a = s.memRead a

/-! ### Framebuffer -/

/-- 00E0 clears all 2048 pixels and changes nothing else, whatever the word's X nibble is (45_display; that X is ignored is
the spec's decision D6, log 9). -/
def Obligations.ClearScreen : Prop :=
  SelectedBy 0xF0FF#16 0x00E0#16 (fun _ => .op00E0) ∧
  ∀ s : State, ∃ t, exec .op00E0 s = .next t ∧
    (∀ xx yy, xx < 64 → yy < 32 → t.pixel (yy * 64 + xx) = false) ∧
    t = { s with fb := t.fb } ∧ (∀ r, t.reg r = s.reg r) ∧ ∀ a, t.memRead a = s.memRead a

/-- DXYN flips exactly the pixels the clipped sprite covers and sets x[15] to 1 if one of them was lit, else to 0; nothing
else changes (45_display; bit 7 leftmost is the spec's decision D10, coordinates before the flag D11, that `I` is unchanged
D15; log 10, 11, 12). -/
def Obligations.DrawXorsTheSpriteAndReportsCollision : Prop :=
  ∀ (s : State) (x y : RegNum) (n : Fin 16), ∃ t, exec (.opDXYN x y n) s = .next t ∧
    (∀ xx yy, xx < 64 → yy < 32 →
      t.pixel (yy * 64 + xx) = (s.pixel (yy * 64 + xx) ^^ spriteCovers s x y n xx yy)) ∧
    (t.reg 15 = 1#8 ↔ ∃ xx yy, xx < 64 ∧ yy < 32 ∧
      spriteCovers s x y n xx yy = true ∧ s.pixel (yy * 64 + xx) = true) ∧
    (t.reg 15 = 1#8 ∨ t.reg 15 = 0#8) ∧
    t = { s with fb := t.fb, x := t.x } ∧ (∀ r, r ≠ 15 → t.reg r = s.reg r) ∧ ∀ a, t.memRead a = s.memRead a

/-! ### Timers and keys -/

/-- FX07 reads the delay timer and leaves it unchanged (46_timer_key). -/
def Obligations.ReadDelayTimer : Prop :=
  ∀ (s : State) (x : RegNum), ∃ t, exec (.opFX07 x) s = .next t ∧ t.reg x = s.DT ∧ t.DT = s.DT ∧ OnlyRegs s t [x]

/-- FX15 sets the delay timer, FX18 the sound timer, and with it the tone; nothing else changes (46_timer_key). -/
def Obligations.SetTimers : Prop :=
  ∀ (s : State) (x : RegNum),
    (∃ t, exec (.opFX15 x) s = .next t ∧ t.DT = s.reg x ∧ t = { s with DT := t.DT } ∧
      (∀ r, t.reg r = s.reg r) ∧ ∀ a, t.memRead a = s.memRead a) ∧
    (∃ t, exec (.opFX18 x) s = .next t ∧ t.ST = s.reg x ∧ t = { s with ST := t.ST } ∧
      (t.toneOn = true ↔ s.reg x ≠ 0#8) ∧ (∀ r, t.reg r = s.reg r) ∧ ∀ a, t.memRead a = s.memRead a)

/-- FX0A with a key down stores the lowest-numbered one and goes on; with none it goes back to its own address and changes
nothing else (46_timer_key; that the level counts is the spec's decision D14, log 15). -/
def Obligations.WaitForKeyTakesTheLowestKeyOrRepeats : Prop :=
  ∀ (s : State) (x : RegNum),
    (s.key ≠ 0#16 → ∃ t, exec (.opFX0A x) s = .next t ∧ OnlyRegs s t [x] ∧
      s.key.getLsbD (t.reg x).toNat = true ∧ ∀ j, j < (t.reg x).toNat → s.key.getLsbD j = false) ∧
    (s.key = 0#16 → ∃ t, exec (.opFX0A x) s = .next t ∧ OnlyPc s t ∧
      t.pc.toNat = (s.pc.toNat + 65534) % 65536)

/-! ### Diagnostics and the load port -/

/-- The four diagnostic codes, and which of them each cycle shows: 3 for an unknown opcode, 1 for a call with a full stack,
2 for a return with an empty one, else 0 (60_exceptions section 1; the codes are the spec's decision D23, that an unknown
opcode is reported D7, log 6). -/
def Obligations.DiagnosticCodeOfACycle : Prop :=
  Diag.none.code = 0#2 ∧ Diag.stackOverflow.code = 1#2 ∧ Diag.stackUnderflow.code = 2#2 ∧
  Diag.unknownOpcode.code = 3#2 ∧
  ∀ s : State, ∃ t, step s = .next t ∧ t.diag.code =
    match decode s.fetchWord with
    | .unknown _ => 3#2
    | .instr (.op2NNN _) => if s.sp.val = 16 then 1#2 else 0#2
    | .instr .op00EE => if s.sp.val = 0 then 2#2 else 0#2
    | .instr _ => 0#2

/-- One write through the load port: before the first cycle and from `0x200` on it sets that byte and nothing else; below
`0x200`, and once a cycle has run, the host has no such move and it is refused; reset opens the port again (60_exceptions
section 7; the port's discipline is the spec's decision D22, the refusals are the model's, log 17). -/
def Obligations.LoadPortWritesOneByteOrRefuses : Prop :=
  ∀ (addr : Addr) (data : Byte) (s : State),
    (s.started = false → 0x200 ≤ addr.toNat → ∃ t, loadByte addr data s = .next t ∧
      t.memRead addr.toNat = data ∧ OnlyBytes s t addr.toNat 1) ∧
    (s.started = false → addr.toNat < 0x200 → loadByte addr data s = .refused (.loadBelowOrigin addr.toNat)) ∧
    (s.started = true → loadByte addr data s = .refused .loadAfterStart) ∧
    (∃ t, step s = .next t ∧ t.started = true) ∧
    s.assertReset.started = false

/-- Loading keeps memory in its canonical form, so a run begins in a state that meets the invariant: one port write, a
program load, reset in any state, and reset followed by a load (60_exceptions section 7, 70_reset_and_hazards section 2;
the form is the model's, log 16, the port's discipline log 17). -/
def Obligations.LoadKeepsMemoryCanonical : Prop :=
  (∀ (addr : Addr) (data : Byte) (s : State), s.Inv → s.started = false → 0x200 ≤ addr.toNat →
    ∃ t, loadByte addr data s = .next t ∧ t.Inv) ∧
  (∀ (image : List Byte) (s : State), s.Inv → s.started = false → image.length ≤ 3584 →
    ∃ t, loadProgram image s = .next t ∧ t.Inv) ∧
  (∀ s : State, s.assertReset.Inv) ∧
  (∀ image : List Byte, image.length ≤ 3584 → ∃ t, boot image = .next t ∧ t.Inv)
end

