-- ==== Sys2Proof/Laws/Decode.lean ====
section
/-!
SUPPORT. The fields of an encoded word, one lemma per field and format, and of a word put together from two bytes.
-/

namespace Sys2Proof

theorem toNat_encodeXNN (c : BitVec 4) (x : RegNum) (nn : Byte) :
    (encodeXNN c x nn).toNat = c.toNat * 4096 + x.val * 256 + nn.toNat := by
  have h1 := c.isLt; have h2 := x.isLt; have h3 := nn.isLt
  show (c ++ nibble x ++ nn : BitVec (4 + 4 + 8)).toNat = _
  rw [BitVec.toNat_append, BitVec.toNat_append, ← Nat.shiftLeft_add_eq_or_of_lt (by omega),
    ← Nat.shiftLeft_add_eq_or_of_lt (by simp [nibble])]
  simp only [Nat.shiftLeft_eq, nibble, BitVec.toNat_ofFin]
  omega

theorem toNat_encodeXYN (c : BitVec 4) (x y : RegNum) (n : BitVec 4) :
    (encodeXYN c x y n).toNat = c.toNat * 4096 + x.val * 256 + y.val * 16 + n.toNat := by
  have h1 := c.isLt; have h2 := x.isLt; have h3 := y.isLt; have h4 := n.isLt
  show (c ++ nibble x ++ nibble y ++ n : BitVec (4 + 4 + 4 + 4)).toNat = _
  rw [BitVec.toNat_append, BitVec.toNat_append, BitVec.toNat_append, ← Nat.shiftLeft_add_eq_or_of_lt (by omega),
    ← Nat.shiftLeft_add_eq_or_of_lt (by simp [nibble]), ← Nat.shiftLeft_add_eq_or_of_lt (by simp [nibble])]
  simp only [Nat.shiftLeft_eq, nibble, BitVec.toNat_ofFin]
  omega

theorem toNat_encodeNNN (c : BitVec 4) (nnn : Addr) :
    (encodeNNN c nnn).toNat = c.toNat * 4096 + nnn.toNat := by
  have h1 := c.isLt; have h2 := nnn.isLt
  show (c ++ nnn : BitVec (4 + 12)).toNat = _
  rw [BitVec.toNat_append, ← Nat.shiftLeft_add_eq_or_of_lt (by omega), Nat.shiftLeft_eq]

theorem toNat_classField (w : Word) : (classField w).toNat = w.toNat / 4096 := by
  have := w.isLt
  simp only [classField, BitVec.extractLsb'_toNat, Nat.shiftRight_eq_div_pow]
  omega

theorem val_xField (w : Word) : (xField w).val = w.toNat / 256 % 16 := by
  simp [xField, Nat.shiftRight_eq_div_pow]

theorem val_yField (w : Word) : (yField w).val = w.toNat / 16 % 16 := by
  simp [yField, Nat.shiftRight_eq_div_pow]

theorem toNat_nField (w : Word) : (nField w).toNat = w.toNat % 16 := by
  simp [nField, BitVec.extractLsb'_toNat]

theorem toNat_nnField (w : Word) : (nnField w).toNat = w.toNat % 256 := by
  simp [nnField, BitVec.extractLsb'_toNat]

theorem toNat_nnnField (w : Word) : (nnnField w).toNat = w.toNat % 4096 := by
  simp [nnnField, BitVec.extractLsb'_toNat]

/-! ### Format XNN -/

@[simp] theorem classField_encodeXNN (c : BitVec 4) (x : RegNum) (nn : Byte) : classField (encodeXNN c x nn) = c := by
  have := x.isLt; have := nn.isLt
  apply BitVec.eq_of_toNat_eq; rw [toNat_classField, toNat_encodeXNN]; omega

@[simp] theorem xField_encodeXNN (c : BitVec 4) (x : RegNum) (nn : Byte) : xField (encodeXNN c x nn) = x := by
  have := x.isLt; have := nn.isLt
  apply Fin.ext; rw [val_xField, toNat_encodeXNN]; omega

@[simp] theorem nnField_encodeXNN (c : BitVec 4) (x : RegNum) (nn : Byte) : nnField (encodeXNN c x nn) = nn := by
  have := x.isLt; have := nn.isLt
  apply BitVec.eq_of_toNat_eq; rw [toNat_nnField, toNat_encodeXNN]; omega

/-! ### Formats XY, XYn, XYN -/

@[simp] theorem classField_encodeXYN (c : BitVec 4) (x y : RegNum) (n : BitVec 4) :
    classField (encodeXYN c x y n) = c := by
  have := x.isLt; have := y.isLt; have := n.isLt
  apply BitVec.eq_of_toNat_eq; rw [toNat_classField, toNat_encodeXYN]; omega

@[simp] theorem xField_encodeXYN (c : BitVec 4) (x y : RegNum) (n : BitVec 4) : xField (encodeXYN c x y n) = x := by
  have := x.isLt; have := y.isLt; have := n.isLt
  apply Fin.ext; rw [val_xField, toNat_encodeXYN]; omega

@[simp] theorem yField_encodeXYN (c : BitVec 4) (x y : RegNum) (n : BitVec 4) : yField (encodeXYN c x y n) = y := by
  have := x.isLt; have := y.isLt; have := n.isLt
  apply Fin.ext; rw [val_yField, toNat_encodeXYN]; omega

@[simp] theorem nField_encodeXYN (c : BitVec 4) (x y : RegNum) (n : BitVec 4) : nField (encodeXYN c x y n) = n := by
  have := x.isLt; have := y.isLt; have := n.isLt
  apply BitVec.eq_of_toNat_eq; rw [toNat_nField, toNat_encodeXYN]; omega

/-! ### Format NNN -/

@[simp] theorem classField_encodeNNN (c : BitVec 4) (nnn : Addr) : classField (encodeNNN c nnn) = c := by
  have := nnn.isLt
  apply BitVec.eq_of_toNat_eq; rw [toNat_classField, toNat_encodeNNN]; omega

@[simp] theorem nnnField_encodeNNN (c : BitVec 4) (nnn : Addr) : nnnField (encodeNNN c nnn) = nnn := by
  have := nnn.isLt
  apply BitVec.eq_of_toNat_eq; rw [toNat_nnnField, toNat_encodeNNN]; omega

/-! ### Bytes -/

theorem toNat_joinBytes (hi lo : Byte) : (joinBytes hi lo).toNat = hi.toNat * 256 + lo.toNat := by
  have := lo.isLt
  show (hi ++ lo : BitVec (8 + 8)).toNat = _
  rw [BitVec.toNat_append, ← Nat.shiftLeft_add_eq_or_of_lt (by omega), Nat.shiftLeft_eq]

/-- A word is its two bytes, high byte first. -/
@[simp] theorem joinBytes_bytes (w : Word) : joinBytes (highByte w) (lowByte w) = w := by
  have := w.isLt
  apply BitVec.eq_of_toNat_eq
  rw [toNat_joinBytes]
  simp only [highByte, lowByte, BitVec.extractLsb'_toNat, Nat.shiftRight_eq_div_pow]
  omega

@[simp] theorem highByte_joinBytes (hi lo : Byte) : highByte (joinBytes hi lo) = hi := by
  have := hi.isLt; have := lo.isLt
  apply BitVec.eq_of_toNat_eq
  rw [highByte, BitVec.extractLsb'_toNat, toNat_joinBytes, Nat.shiftRight_eq_div_pow]
  omega

@[simp] theorem lowByte_joinBytes (hi lo : Byte) : lowByte (joinBytes hi lo) = lo := by
  have := hi.isLt; have := lo.isLt
  apply BitVec.eq_of_toNat_eq
  rw [lowByte, BitVec.extractLsb'_toNat, toNat_joinBytes, Nat.shiftRight_eq_div_pow]
  omega

end Sys2Proof
end

