-- ==== Sys2Proof/Laws/State.lean ====
section
/-!
SUPPORT. For each update of State and each field, what the update leaves in the field: all true by unfolding, so that no
proof unfolds a record update again.
-/

namespace Sys2Proof.Machine

variable (s : State)

/-! ### `State.setReg` -/

@[simp] theorem State.setReg_x (r : RegNum) (v : Byte) : (s.setReg r v).x = s.x.set r v := rfl
@[simp] theorem State.setReg_pc (r : RegNum) (v : Byte) : (s.setReg r v).pc = s.pc := rfl
@[simp] theorem State.setReg_I (r : RegNum) (v : Byte) : (s.setReg r v).I = s.I := rfl
@[simp] theorem State.setReg_stack (r : RegNum) (v : Byte) : (s.setReg r v).stack = s.stack := rfl
@[simp] theorem State.setReg_sp (r : RegNum) (v : Byte) : (s.setReg r v).sp = s.sp := rfl
@[simp] theorem State.setReg_DT (r : RegNum) (v : Byte) : (s.setReg r v).DT = s.DT := rfl
@[simp] theorem State.setReg_ST (r : RegNum) (v : Byte) : (s.setReg r v).ST = s.ST := rfl
@[simp] theorem State.setReg_mem (r : RegNum) (v : Byte) : (s.setReg r v).mem = s.mem := rfl
@[simp] theorem State.setReg_fb (r : RegNum) (v : Byte) : (s.setReg r v).fb = s.fb := rfl
@[simp] theorem State.setReg_key (r : RegNum) (v : Byte) : (s.setReg r v).key = s.key := rfl
@[simp] theorem State.setReg_rnd (r : RegNum) (v : Byte) : (s.setReg r v).rnd = s.rnd := rfl
@[simp] theorem State.setReg_diag (r : RegNum) (v : Byte) : (s.setReg r v).diag = s.diag := rfl
@[simp] theorem State.setReg_executedOpcode (r : RegNum) (v : Byte) : (s.setReg r v).executedOpcode = s.executedOpcode := rfl
@[simp] theorem State.setReg_pcBefore (r : RegNum) (v : Byte) : (s.setReg r v).pcBefore = s.pcBefore := rfl
@[simp] theorem State.setReg_started (r : RegNum) (v : Byte) : (s.setReg r v).started = s.started := rfl
@[simp] theorem State.setReg_inputs (r : RegNum) (v : Byte) : (s.setReg r v).inputs = s.inputs := rfl
@[simp] theorem State.setReg_cycle (r : RegNum) (v : Byte) : (s.setReg r v).cycle = s.cycle := rfl

/-! ### `State.loadRegs` -/

@[simp] theorem State.loadRegs_x (r : RegNum) (v : RegNum → Byte) : (s.loadRegs r v).x = Vector.ofFn fun i : Fin 16 => if i ≤ r then v i else s.x[i] := rfl
@[simp] theorem State.loadRegs_pc (r : RegNum) (v : RegNum → Byte) : (s.loadRegs r v).pc = s.pc := rfl
@[simp] theorem State.loadRegs_I (r : RegNum) (v : RegNum → Byte) : (s.loadRegs r v).I = s.I := rfl
@[simp] theorem State.loadRegs_stack (r : RegNum) (v : RegNum → Byte) : (s.loadRegs r v).stack = s.stack := rfl
@[simp] theorem State.loadRegs_sp (r : RegNum) (v : RegNum → Byte) : (s.loadRegs r v).sp = s.sp := rfl
@[simp] theorem State.loadRegs_DT (r : RegNum) (v : RegNum → Byte) : (s.loadRegs r v).DT = s.DT := rfl
@[simp] theorem State.loadRegs_ST (r : RegNum) (v : RegNum → Byte) : (s.loadRegs r v).ST = s.ST := rfl
@[simp] theorem State.loadRegs_mem (r : RegNum) (v : RegNum → Byte) : (s.loadRegs r v).mem = s.mem := rfl
@[simp] theorem State.loadRegs_fb (r : RegNum) (v : RegNum → Byte) : (s.loadRegs r v).fb = s.fb := rfl
@[simp] theorem State.loadRegs_key (r : RegNum) (v : RegNum → Byte) : (s.loadRegs r v).key = s.key := rfl
@[simp] theorem State.loadRegs_rnd (r : RegNum) (v : RegNum → Byte) : (s.loadRegs r v).rnd = s.rnd := rfl
@[simp] theorem State.loadRegs_diag (r : RegNum) (v : RegNum → Byte) : (s.loadRegs r v).diag = s.diag := rfl
@[simp] theorem State.loadRegs_executedOpcode (r : RegNum) (v : RegNum → Byte) : (s.loadRegs r v).executedOpcode = s.executedOpcode := rfl
@[simp] theorem State.loadRegs_pcBefore (r : RegNum) (v : RegNum → Byte) : (s.loadRegs r v).pcBefore = s.pcBefore := rfl
@[simp] theorem State.loadRegs_started (r : RegNum) (v : RegNum → Byte) : (s.loadRegs r v).started = s.started := rfl
@[simp] theorem State.loadRegs_inputs (r : RegNum) (v : RegNum → Byte) : (s.loadRegs r v).inputs = s.inputs := rfl
@[simp] theorem State.loadRegs_cycle (r : RegNum) (v : RegNum → Byte) : (s.loadRegs r v).cycle = s.cycle := rfl

/-! ### `State.setPc` -/

@[simp] theorem State.setPc_x (t : Word) : (s.setPc t).x = s.x := rfl
@[simp] theorem State.setPc_pc (t : Word) : (s.setPc t).pc = t := rfl
@[simp] theorem State.setPc_I (t : Word) : (s.setPc t).I = s.I := rfl
@[simp] theorem State.setPc_stack (t : Word) : (s.setPc t).stack = s.stack := rfl
@[simp] theorem State.setPc_sp (t : Word) : (s.setPc t).sp = s.sp := rfl
@[simp] theorem State.setPc_DT (t : Word) : (s.setPc t).DT = s.DT := rfl
@[simp] theorem State.setPc_ST (t : Word) : (s.setPc t).ST = s.ST := rfl
@[simp] theorem State.setPc_mem (t : Word) : (s.setPc t).mem = s.mem := rfl
@[simp] theorem State.setPc_fb (t : Word) : (s.setPc t).fb = s.fb := rfl
@[simp] theorem State.setPc_key (t : Word) : (s.setPc t).key = s.key := rfl
@[simp] theorem State.setPc_rnd (t : Word) : (s.setPc t).rnd = s.rnd := rfl
@[simp] theorem State.setPc_diag (t : Word) : (s.setPc t).diag = s.diag := rfl
@[simp] theorem State.setPc_executedOpcode (t : Word) : (s.setPc t).executedOpcode = s.executedOpcode := rfl
@[simp] theorem State.setPc_pcBefore (t : Word) : (s.setPc t).pcBefore = s.pcBefore := rfl
@[simp] theorem State.setPc_started (t : Word) : (s.setPc t).started = s.started := rfl
@[simp] theorem State.setPc_inputs (t : Word) : (s.setPc t).inputs = s.inputs := rfl
@[simp] theorem State.setPc_cycle (t : Word) : (s.setPc t).cycle = s.cycle := rfl

/-! ### `State.skipIf` -/

@[simp] theorem State.skipIf_x (c : Bool) : (s.skipIf c).x = s.x := rfl
@[simp] theorem State.skipIf_pc (c : Bool) : (s.skipIf c).pc = if c then s.pc + 2#16 else s.pc := rfl
@[simp] theorem State.skipIf_I (c : Bool) : (s.skipIf c).I = s.I := rfl
@[simp] theorem State.skipIf_stack (c : Bool) : (s.skipIf c).stack = s.stack := rfl
@[simp] theorem State.skipIf_sp (c : Bool) : (s.skipIf c).sp = s.sp := rfl
@[simp] theorem State.skipIf_DT (c : Bool) : (s.skipIf c).DT = s.DT := rfl
@[simp] theorem State.skipIf_ST (c : Bool) : (s.skipIf c).ST = s.ST := rfl
@[simp] theorem State.skipIf_mem (c : Bool) : (s.skipIf c).mem = s.mem := rfl
@[simp] theorem State.skipIf_fb (c : Bool) : (s.skipIf c).fb = s.fb := rfl
@[simp] theorem State.skipIf_key (c : Bool) : (s.skipIf c).key = s.key := rfl
@[simp] theorem State.skipIf_rnd (c : Bool) : (s.skipIf c).rnd = s.rnd := rfl
@[simp] theorem State.skipIf_diag (c : Bool) : (s.skipIf c).diag = s.diag := rfl
@[simp] theorem State.skipIf_executedOpcode (c : Bool) : (s.skipIf c).executedOpcode = s.executedOpcode := rfl
@[simp] theorem State.skipIf_pcBefore (c : Bool) : (s.skipIf c).pcBefore = s.pcBefore := rfl
@[simp] theorem State.skipIf_started (c : Bool) : (s.skipIf c).started = s.started := rfl
@[simp] theorem State.skipIf_inputs (c : Bool) : (s.skipIf c).inputs = s.inputs := rfl
@[simp] theorem State.skipIf_cycle (c : Bool) : (s.skipIf c).cycle = s.cycle := rfl

/-! ### `State.setIndex` -/

@[simp] theorem State.setIndex_x (v : Word) : (s.setIndex v).x = s.x := rfl
@[simp] theorem State.setIndex_pc (v : Word) : (s.setIndex v).pc = s.pc := rfl
@[simp] theorem State.setIndex_I (v : Word) : (s.setIndex v).I = v := rfl
@[simp] theorem State.setIndex_stack (v : Word) : (s.setIndex v).stack = s.stack := rfl
@[simp] theorem State.setIndex_sp (v : Word) : (s.setIndex v).sp = s.sp := rfl
@[simp] theorem State.setIndex_DT (v : Word) : (s.setIndex v).DT = s.DT := rfl
@[simp] theorem State.setIndex_ST (v : Word) : (s.setIndex v).ST = s.ST := rfl
@[simp] theorem State.setIndex_mem (v : Word) : (s.setIndex v).mem = s.mem := rfl
@[simp] theorem State.setIndex_fb (v : Word) : (s.setIndex v).fb = s.fb := rfl
@[simp] theorem State.setIndex_key (v : Word) : (s.setIndex v).key = s.key := rfl
@[simp] theorem State.setIndex_rnd (v : Word) : (s.setIndex v).rnd = s.rnd := rfl
@[simp] theorem State.setIndex_diag (v : Word) : (s.setIndex v).diag = s.diag := rfl
@[simp] theorem State.setIndex_executedOpcode (v : Word) : (s.setIndex v).executedOpcode = s.executedOpcode := rfl
@[simp] theorem State.setIndex_pcBefore (v : Word) : (s.setIndex v).pcBefore = s.pcBefore := rfl
@[simp] theorem State.setIndex_started (v : Word) : (s.setIndex v).started = s.started := rfl
@[simp] theorem State.setIndex_inputs (v : Word) : (s.setIndex v).inputs = s.inputs := rfl
@[simp] theorem State.setIndex_cycle (v : Word) : (s.setIndex v).cycle = s.cycle := rfl

/-! ### `State.setDelay` -/

@[simp] theorem State.setDelay_x (v : Byte) : (s.setDelay v).x = s.x := rfl
@[simp] theorem State.setDelay_pc (v : Byte) : (s.setDelay v).pc = s.pc := rfl
@[simp] theorem State.setDelay_I (v : Byte) : (s.setDelay v).I = s.I := rfl
@[simp] theorem State.setDelay_stack (v : Byte) : (s.setDelay v).stack = s.stack := rfl
@[simp] theorem State.setDelay_sp (v : Byte) : (s.setDelay v).sp = s.sp := rfl
@[simp] theorem State.setDelay_DT (v : Byte) : (s.setDelay v).DT = v := rfl
@[simp] theorem State.setDelay_ST (v : Byte) : (s.setDelay v).ST = s.ST := rfl
@[simp] theorem State.setDelay_mem (v : Byte) : (s.setDelay v).mem = s.mem := rfl
@[simp] theorem State.setDelay_fb (v : Byte) : (s.setDelay v).fb = s.fb := rfl
@[simp] theorem State.setDelay_key (v : Byte) : (s.setDelay v).key = s.key := rfl
@[simp] theorem State.setDelay_rnd (v : Byte) : (s.setDelay v).rnd = s.rnd := rfl
@[simp] theorem State.setDelay_diag (v : Byte) : (s.setDelay v).diag = s.diag := rfl
@[simp] theorem State.setDelay_executedOpcode (v : Byte) : (s.setDelay v).executedOpcode = s.executedOpcode := rfl
@[simp] theorem State.setDelay_pcBefore (v : Byte) : (s.setDelay v).pcBefore = s.pcBefore := rfl
@[simp] theorem State.setDelay_started (v : Byte) : (s.setDelay v).started = s.started := rfl
@[simp] theorem State.setDelay_inputs (v : Byte) : (s.setDelay v).inputs = s.inputs := rfl
@[simp] theorem State.setDelay_cycle (v : Byte) : (s.setDelay v).cycle = s.cycle := rfl

/-! ### `State.setSound` -/

@[simp] theorem State.setSound_x (v : Byte) : (s.setSound v).x = s.x := rfl
@[simp] theorem State.setSound_pc (v : Byte) : (s.setSound v).pc = s.pc := rfl
@[simp] theorem State.setSound_I (v : Byte) : (s.setSound v).I = s.I := rfl
@[simp] theorem State.setSound_stack (v : Byte) : (s.setSound v).stack = s.stack := rfl
@[simp] theorem State.setSound_sp (v : Byte) : (s.setSound v).sp = s.sp := rfl
@[simp] theorem State.setSound_DT (v : Byte) : (s.setSound v).DT = s.DT := rfl
@[simp] theorem State.setSound_ST (v : Byte) : (s.setSound v).ST = v := rfl
@[simp] theorem State.setSound_mem (v : Byte) : (s.setSound v).mem = s.mem := rfl
@[simp] theorem State.setSound_fb (v : Byte) : (s.setSound v).fb = s.fb := rfl
@[simp] theorem State.setSound_key (v : Byte) : (s.setSound v).key = s.key := rfl
@[simp] theorem State.setSound_rnd (v : Byte) : (s.setSound v).rnd = s.rnd := rfl
@[simp] theorem State.setSound_diag (v : Byte) : (s.setSound v).diag = s.diag := rfl
@[simp] theorem State.setSound_executedOpcode (v : Byte) : (s.setSound v).executedOpcode = s.executedOpcode := rfl
@[simp] theorem State.setSound_pcBefore (v : Byte) : (s.setSound v).pcBefore = s.pcBefore := rfl
@[simp] theorem State.setSound_started (v : Byte) : (s.setSound v).started = s.started := rfl
@[simp] theorem State.setSound_inputs (v : Byte) : (s.setSound v).inputs = s.inputs := rfl
@[simp] theorem State.setSound_cycle (v : Byte) : (s.setSound v).cycle = s.cycle := rfl

/-! ### `State.report` -/

@[simp] theorem State.report_x (d : Diag) : (s.report d).x = s.x := rfl
@[simp] theorem State.report_pc (d : Diag) : (s.report d).pc = s.pc := rfl
@[simp] theorem State.report_I (d : Diag) : (s.report d).I = s.I := rfl
@[simp] theorem State.report_stack (d : Diag) : (s.report d).stack = s.stack := rfl
@[simp] theorem State.report_sp (d : Diag) : (s.report d).sp = s.sp := rfl
@[simp] theorem State.report_DT (d : Diag) : (s.report d).DT = s.DT := rfl
@[simp] theorem State.report_ST (d : Diag) : (s.report d).ST = s.ST := rfl
@[simp] theorem State.report_mem (d : Diag) : (s.report d).mem = s.mem := rfl
@[simp] theorem State.report_fb (d : Diag) : (s.report d).fb = s.fb := rfl
@[simp] theorem State.report_key (d : Diag) : (s.report d).key = s.key := rfl
@[simp] theorem State.report_rnd (d : Diag) : (s.report d).rnd = s.rnd := rfl
@[simp] theorem State.report_diag (d : Diag) : (s.report d).diag = d := rfl
@[simp] theorem State.report_executedOpcode (d : Diag) : (s.report d).executedOpcode = s.executedOpcode := rfl
@[simp] theorem State.report_pcBefore (d : Diag) : (s.report d).pcBefore = s.pcBefore := rfl
@[simp] theorem State.report_started (d : Diag) : (s.report d).started = s.started := rfl
@[simp] theorem State.report_inputs (d : Diag) : (s.report d).inputs = s.inputs := rfl
@[simp] theorem State.report_cycle (d : Diag) : (s.report d).cycle = s.cycle := rfl

/-! ### `State.setStack` -/

@[simp] theorem State.setStack_x (k : Vector Word 16) (p : Fin 17) : (s.setStack k p).x = s.x := rfl
@[simp] theorem State.setStack_pc (k : Vector Word 16) (p : Fin 17) : (s.setStack k p).pc = s.pc := rfl
@[simp] theorem State.setStack_I (k : Vector Word 16) (p : Fin 17) : (s.setStack k p).I = s.I := rfl
@[simp] theorem State.setStack_stack (k : Vector Word 16) (p : Fin 17) : (s.setStack k p).stack = k := rfl
@[simp] theorem State.setStack_sp (k : Vector Word 16) (p : Fin 17) : (s.setStack k p).sp = p := rfl
@[simp] theorem State.setStack_DT (k : Vector Word 16) (p : Fin 17) : (s.setStack k p).DT = s.DT := rfl
@[simp] theorem State.setStack_ST (k : Vector Word 16) (p : Fin 17) : (s.setStack k p).ST = s.ST := rfl
@[simp] theorem State.setStack_mem (k : Vector Word 16) (p : Fin 17) : (s.setStack k p).mem = s.mem := rfl
@[simp] theorem State.setStack_fb (k : Vector Word 16) (p : Fin 17) : (s.setStack k p).fb = s.fb := rfl
@[simp] theorem State.setStack_key (k : Vector Word 16) (p : Fin 17) : (s.setStack k p).key = s.key := rfl
@[simp] theorem State.setStack_rnd (k : Vector Word 16) (p : Fin 17) : (s.setStack k p).rnd = s.rnd := rfl
@[simp] theorem State.setStack_diag (k : Vector Word 16) (p : Fin 17) : (s.setStack k p).diag = s.diag := rfl
@[simp] theorem State.setStack_executedOpcode (k : Vector Word 16) (p : Fin 17) : (s.setStack k p).executedOpcode = s.executedOpcode := rfl
@[simp] theorem State.setStack_pcBefore (k : Vector Word 16) (p : Fin 17) : (s.setStack k p).pcBefore = s.pcBefore := rfl
@[simp] theorem State.setStack_started (k : Vector Word 16) (p : Fin 17) : (s.setStack k p).started = s.started := rfl
@[simp] theorem State.setStack_inputs (k : Vector Word 16) (p : Fin 17) : (s.setStack k p).inputs = s.inputs := rfl
@[simp] theorem State.setStack_cycle (k : Vector Word 16) (p : Fin 17) : (s.setStack k p).cycle = s.cycle := rfl

/-! ### `State.setFb` -/

@[simp] theorem State.setFb_x (f : Framebuffer) : (s.setFb f).x = s.x := rfl
@[simp] theorem State.setFb_pc (f : Framebuffer) : (s.setFb f).pc = s.pc := rfl
@[simp] theorem State.setFb_I (f : Framebuffer) : (s.setFb f).I = s.I := rfl
@[simp] theorem State.setFb_stack (f : Framebuffer) : (s.setFb f).stack = s.stack := rfl
@[simp] theorem State.setFb_sp (f : Framebuffer) : (s.setFb f).sp = s.sp := rfl
@[simp] theorem State.setFb_DT (f : Framebuffer) : (s.setFb f).DT = s.DT := rfl
@[simp] theorem State.setFb_ST (f : Framebuffer) : (s.setFb f).ST = s.ST := rfl
@[simp] theorem State.setFb_mem (f : Framebuffer) : (s.setFb f).mem = s.mem := rfl
@[simp] theorem State.setFb_fb (f : Framebuffer) : (s.setFb f).fb = f := rfl
@[simp] theorem State.setFb_key (f : Framebuffer) : (s.setFb f).key = s.key := rfl
@[simp] theorem State.setFb_rnd (f : Framebuffer) : (s.setFb f).rnd = s.rnd := rfl
@[simp] theorem State.setFb_diag (f : Framebuffer) : (s.setFb f).diag = s.diag := rfl
@[simp] theorem State.setFb_executedOpcode (f : Framebuffer) : (s.setFb f).executedOpcode = s.executedOpcode := rfl
@[simp] theorem State.setFb_pcBefore (f : Framebuffer) : (s.setFb f).pcBefore = s.pcBefore := rfl
@[simp] theorem State.setFb_started (f : Framebuffer) : (s.setFb f).started = s.started := rfl
@[simp] theorem State.setFb_inputs (f : Framebuffer) : (s.setFb f).inputs = s.inputs := rfl
@[simp] theorem State.setFb_cycle (f : Framebuffer) : (s.setFb f).cycle = s.cycle := rfl

/-! ### `State.memWrite` -/

@[simp] theorem State.memWrite_x (a : Nat) (v : Byte) : (s.memWrite a v).x = s.x := rfl
@[simp] theorem State.memWrite_pc (a : Nat) (v : Byte) : (s.memWrite a v).pc = s.pc := rfl
@[simp] theorem State.memWrite_I (a : Nat) (v : Byte) : (s.memWrite a v).I = s.I := rfl
@[simp] theorem State.memWrite_stack (a : Nat) (v : Byte) : (s.memWrite a v).stack = s.stack := rfl
@[simp] theorem State.memWrite_sp (a : Nat) (v : Byte) : (s.memWrite a v).sp = s.sp := rfl
@[simp] theorem State.memWrite_DT (a : Nat) (v : Byte) : (s.memWrite a v).DT = s.DT := rfl
@[simp] theorem State.memWrite_ST (a : Nat) (v : Byte) : (s.memWrite a v).ST = s.ST := rfl
@[simp] theorem State.memWrite_mem (a : Nat) (v : Byte) : (s.memWrite a v).mem = s.mem.write (wrapAddr a) v := rfl
@[simp] theorem State.memWrite_fb (a : Nat) (v : Byte) : (s.memWrite a v).fb = s.fb := rfl
@[simp] theorem State.memWrite_key (a : Nat) (v : Byte) : (s.memWrite a v).key = s.key := rfl
@[simp] theorem State.memWrite_rnd (a : Nat) (v : Byte) : (s.memWrite a v).rnd = s.rnd := rfl
@[simp] theorem State.memWrite_diag (a : Nat) (v : Byte) : (s.memWrite a v).diag = s.diag := rfl
@[simp] theorem State.memWrite_executedOpcode (a : Nat) (v : Byte) : (s.memWrite a v).executedOpcode = s.executedOpcode := rfl
@[simp] theorem State.memWrite_pcBefore (a : Nat) (v : Byte) : (s.memWrite a v).pcBefore = s.pcBefore := rfl
@[simp] theorem State.memWrite_started (a : Nat) (v : Byte) : (s.memWrite a v).started = s.started := rfl
@[simp] theorem State.memWrite_inputs (a : Nat) (v : Byte) : (s.memWrite a v).inputs = s.inputs := rfl
@[simp] theorem State.memWrite_cycle (a : Nat) (v : Byte) : (s.memWrite a v).cycle = s.cycle := rfl

/-! ### `State.memWriteBytes` -/

@[simp] theorem State.memWriteBytes_x (a : Nat) (bs : List Byte) : (s.memWriteBytes a bs).x = s.x := rfl
@[simp] theorem State.memWriteBytes_pc (a : Nat) (bs : List Byte) : (s.memWriteBytes a bs).pc = s.pc := rfl
@[simp] theorem State.memWriteBytes_I (a : Nat) (bs : List Byte) : (s.memWriteBytes a bs).I = s.I := rfl
@[simp] theorem State.memWriteBytes_stack (a : Nat) (bs : List Byte) : (s.memWriteBytes a bs).stack = s.stack := rfl
@[simp] theorem State.memWriteBytes_sp (a : Nat) (bs : List Byte) : (s.memWriteBytes a bs).sp = s.sp := rfl
@[simp] theorem State.memWriteBytes_DT (a : Nat) (bs : List Byte) : (s.memWriteBytes a bs).DT = s.DT := rfl
@[simp] theorem State.memWriteBytes_ST (a : Nat) (bs : List Byte) : (s.memWriteBytes a bs).ST = s.ST := rfl
@[simp] theorem State.memWriteBytes_mem (a : Nat) (bs : List Byte) : (s.memWriteBytes a bs).mem = s.mem.writeBytes a bs := rfl
@[simp] theorem State.memWriteBytes_fb (a : Nat) (bs : List Byte) : (s.memWriteBytes a bs).fb = s.fb := rfl
@[simp] theorem State.memWriteBytes_key (a : Nat) (bs : List Byte) : (s.memWriteBytes a bs).key = s.key := rfl
@[simp] theorem State.memWriteBytes_rnd (a : Nat) (bs : List Byte) : (s.memWriteBytes a bs).rnd = s.rnd := rfl
@[simp] theorem State.memWriteBytes_diag (a : Nat) (bs : List Byte) : (s.memWriteBytes a bs).diag = s.diag := rfl
@[simp] theorem State.memWriteBytes_executedOpcode (a : Nat) (bs : List Byte) : (s.memWriteBytes a bs).executedOpcode = s.executedOpcode := rfl
@[simp] theorem State.memWriteBytes_pcBefore (a : Nat) (bs : List Byte) : (s.memWriteBytes a bs).pcBefore = s.pcBefore := rfl
@[simp] theorem State.memWriteBytes_started (a : Nat) (bs : List Byte) : (s.memWriteBytes a bs).started = s.started := rfl
@[simp] theorem State.memWriteBytes_inputs (a : Nat) (bs : List Byte) : (s.memWriteBytes a bs).inputs = s.inputs := rfl
@[simp] theorem State.memWriteBytes_cycle (a : Nat) (bs : List Byte) : (s.memWriteBytes a bs).cycle = s.cycle := rfl

/-! ### `State.applyTicks` -/

@[simp] theorem State.applyTicks_x (n : Nat) : (s.applyTicks n).x = s.x := rfl
@[simp] theorem State.applyTicks_pc (n : Nat) : (s.applyTicks n).pc = s.pc := rfl
@[simp] theorem State.applyTicks_I (n : Nat) : (s.applyTicks n).I = s.I := rfl
@[simp] theorem State.applyTicks_stack (n : Nat) : (s.applyTicks n).stack = s.stack := rfl
@[simp] theorem State.applyTicks_sp (n : Nat) : (s.applyTicks n).sp = s.sp := rfl
@[simp] theorem State.applyTicks_DT (n : Nat) : (s.applyTicks n).DT = countdown n s.DT := rfl
@[simp] theorem State.applyTicks_ST (n : Nat) : (s.applyTicks n).ST = countdown n s.ST := rfl
@[simp] theorem State.applyTicks_mem (n : Nat) : (s.applyTicks n).mem = s.mem := rfl
@[simp] theorem State.applyTicks_fb (n : Nat) : (s.applyTicks n).fb = s.fb := rfl
@[simp] theorem State.applyTicks_key (n : Nat) : (s.applyTicks n).key = s.key := rfl
@[simp] theorem State.applyTicks_rnd (n : Nat) : (s.applyTicks n).rnd = s.rnd := rfl
@[simp] theorem State.applyTicks_diag (n : Nat) : (s.applyTicks n).diag = s.diag := rfl
@[simp] theorem State.applyTicks_executedOpcode (n : Nat) : (s.applyTicks n).executedOpcode = s.executedOpcode := rfl
@[simp] theorem State.applyTicks_pcBefore (n : Nat) : (s.applyTicks n).pcBefore = s.pcBefore := rfl
@[simp] theorem State.applyTicks_started (n : Nat) : (s.applyTicks n).started = s.started := rfl
@[simp] theorem State.applyTicks_inputs (n : Nat) : (s.applyTicks n).inputs = s.inputs := rfl
@[simp] theorem State.applyTicks_cycle (n : Nat) : (s.applyTicks n).cycle = s.cycle := rfl

/-! ### `State.endCycle` -/

@[simp] theorem State.endCycle_x (n : Nat) : (s.endCycle n).x = s.x := rfl
@[simp] theorem State.endCycle_pc (n : Nat) : (s.endCycle n).pc = s.pc := rfl
@[simp] theorem State.endCycle_I (n : Nat) : (s.endCycle n).I = s.I := rfl
@[simp] theorem State.endCycle_stack (n : Nat) : (s.endCycle n).stack = s.stack := rfl
@[simp] theorem State.endCycle_sp (n : Nat) : (s.endCycle n).sp = s.sp := rfl
@[simp] theorem State.endCycle_DT (n : Nat) : (s.endCycle n).DT = countdown n s.DT := rfl
@[simp] theorem State.endCycle_ST (n : Nat) : (s.endCycle n).ST = countdown n s.ST := rfl
@[simp] theorem State.endCycle_mem (n : Nat) : (s.endCycle n).mem = s.mem := rfl
@[simp] theorem State.endCycle_fb (n : Nat) : (s.endCycle n).fb = s.fb := rfl
@[simp] theorem State.endCycle_key (n : Nat) : (s.endCycle n).key = s.key := rfl
@[simp] theorem State.endCycle_rnd (n : Nat) : (s.endCycle n).rnd = s.rnd := rfl
@[simp] theorem State.endCycle_diag (n : Nat) : (s.endCycle n).diag = s.diag := rfl
@[simp] theorem State.endCycle_executedOpcode (n : Nat) : (s.endCycle n).executedOpcode = s.executedOpcode := rfl
@[simp] theorem State.endCycle_pcBefore (n : Nat) : (s.endCycle n).pcBefore = s.pcBefore := rfl
@[simp] theorem State.endCycle_started (n : Nat) : (s.endCycle n).started = s.started := rfl
@[simp] theorem State.endCycle_inputs (n : Nat) : (s.endCycle n).inputs = s.inputs := rfl
@[simp] theorem State.endCycle_cycle (n : Nat) : (s.endCycle n).cycle = s.cycle := rfl

/-! ### `State.beginCycle` -/

@[simp] theorem State.beginCycle_x : (s.beginCycle).x = s.x := rfl
@[simp] theorem State.beginCycle_pc : (s.beginCycle).pc = s.pc + 2#16 := rfl
@[simp] theorem State.beginCycle_I : (s.beginCycle).I = s.I := rfl
@[simp] theorem State.beginCycle_stack : (s.beginCycle).stack = s.stack := rfl
@[simp] theorem State.beginCycle_sp : (s.beginCycle).sp = s.sp := rfl
@[simp] theorem State.beginCycle_DT : (s.beginCycle).DT = s.DT := rfl
@[simp] theorem State.beginCycle_ST : (s.beginCycle).ST = s.ST := rfl
@[simp] theorem State.beginCycle_mem : (s.beginCycle).mem = s.mem := rfl
@[simp] theorem State.beginCycle_fb : (s.beginCycle).fb = s.fb := rfl
@[simp] theorem State.beginCycle_key : (s.beginCycle).key = s.nextInput.keys := rfl
@[simp] theorem State.beginCycle_rnd : (s.beginCycle).rnd = s.nextInput.rnd := rfl
@[simp] theorem State.beginCycle_diag : (s.beginCycle).diag = .none := rfl
@[simp] theorem State.beginCycle_executedOpcode : (s.beginCycle).executedOpcode = s.fetchWord := rfl
@[simp] theorem State.beginCycle_pcBefore : (s.beginCycle).pcBefore = s.pc := rfl
@[simp] theorem State.beginCycle_started : (s.beginCycle).started = true := rfl
@[simp] theorem State.beginCycle_inputs : (s.beginCycle).inputs = s.inputs.tail := rfl
@[simp] theorem State.beginCycle_cycle : (s.beginCycle).cycle = s.cycle + 1 := rfl

end Sys2Proof.Machine
end

