-- ==== Sys2Proof/Laws/Memory.lean ====
section
/-!
SUPPORT. What the memory operations do: reads after writes, for every memory list whether canonical or not, and that
every operation keeps the canonical form.
-/

namespace Sys2Proof.Machine

/-! ### One cell -/

theorem Memory.read_filter (m : Memory) (a b : Nat) :
    Memory.read (m.filter fun c => c.1 != a) b = if b = a then Memory.unlisted else m.read b := by
  induction m with
  | nil => simp [Memory.read]
  | cons c m ih =>
    by_cases hc : c.1 = a
    · rw [List.filter_cons_of_neg (by simp [hc]), ih]
      by_cases hb : b = a
      · simp [hb]
      · simp [hb, Memory.read, hc, Ne.symm hb]
    · rw [List.filter_cons_of_pos (by simp [hc])]
      simp only [Memory.read, ih]
      by_cases hcb : c.1 = b
      · have : b ≠ a := fun h => hc (hcb.trans h)
        simp [hcb, this]
      · simp [hcb]

theorem Memory.read_insert (m : Memory) (a b : Nat) (v : Byte) (h : ∀ c ∈ m, c.1 ≠ a) :
    Memory.read (m.insert a v) b = if b = a then v else m.read b := by
  induction m with
  | nil => simp [Memory.insert, Memory.read, eq_comm]
  | cons c m ih =>
    have hc : c.1 ≠ a := h c (by simp)
    have ih := ih fun d hd => h d (by simp [hd])
    by_cases hlt : c.1 < a
    · simp only [Memory.insert, hlt, if_true, Memory.read, ih]
      by_cases hcb : c.1 = b
      · have : b ≠ a := fun e => hc (hcb.trans e)
        simp [hcb, this]
      · simp [hcb]
    · simp [Memory.insert, hlt, Memory.read, eq_comm]

/-- A read after a write: the value written at its address, the old value at every other one. -/
theorem Memory.read_write (m : Memory) (a b : Nat) (v : Byte) :
    (m.write a v).read b = if b = a then v else m.read b := by
  unfold Memory.write
  split
  next hv => rw [Memory.read_filter, hv]
  next hv =>
    rw [Memory.read_insert _ _ _ _ (by simp), Memory.read_filter]
    split <;> rfl

/-! ### The canonical form -/

theorem Memory.wf_cons (c : Host.Cell) (m : Memory) :
    Memory.wf (c :: m) = true ↔
      c.1 < 4096 ∧ c.2 ≠ Memory.unlisted ∧ (∀ d ∈ m, c.1 < d.1) ∧ m.wf = true := by
  simp [Memory.wf, and_assoc]

theorem Memory.wf_filter (m : Memory) (p : Host.Cell → Bool) (h : m.wf = true) :
    Memory.wf (m.filter p) = true := by
  induction m with
  | nil => rfl
  | cons c m ih =>
    obtain ⟨h1, h2, h3, h4⟩ := (Memory.wf_cons c m).1 h
    by_cases hp : p c = true
    · rw [List.filter_cons_of_pos hp, Memory.wf_cons]
      exact ⟨h1, h2, fun d hd => h3 d (List.mem_of_mem_filter hd), ih h4⟩
    · rw [List.filter_cons_of_neg hp]
      exact ih h4

theorem Memory.mem_insert (m : Memory) (a : Nat) (v : Byte) (d : Host.Cell) :
    d ∈ m.insert a v ↔ d = (a, v) ∨ d ∈ m := by
  induction m with
  | nil => simp [Memory.insert]
  | cons c m ih =>
    by_cases hlt : c.1 < a
    · simp only [Memory.insert, hlt, if_true, List.mem_cons, ih]
      tauto
    · simp [Memory.insert, hlt]

theorem Memory.wf_insert (m : Memory) (a : Nat) (v : Byte) (h : m.wf = true) (ha : a < 4096)
    (hv : v ≠ Memory.unlisted) (hm : ∀ c ∈ m, c.1 ≠ a) : Memory.wf (m.insert a v) = true := by
  induction m with
  | nil => simp [Memory.insert, ha, hv, Memory.wf]
  | cons c m ih =>
    obtain ⟨h1, h2, h3, h4⟩ := (Memory.wf_cons c m).1 h
    by_cases hlt : c.1 < a
    · simp only [Memory.insert, hlt, if_true]
      rw [Memory.wf_cons]
      refine ⟨h1, h2, fun d hd => ?_, ih h4 fun d hd => hm d (by simp [hd])⟩
      rcases (Memory.mem_insert m a v d).1 hd with rfl | hd
      · exact hlt
      · exact h3 d hd
    · simp only [Memory.insert, hlt, if_false]
      rw [Memory.wf_cons]
      have hc : c.1 ≠ a := hm c (by simp)
      refine ⟨ha, hv, fun d hd => ?_, h⟩
      rcases List.mem_cons.1 hd with rfl | hd
      · show a < d.1
        omega
      · have := h3 d hd
        show a < d.1
        omega

/-- Writing a cell keeps the canonical form. -/
theorem Memory.wf_write (m : Memory) (a : Nat) (v : Byte) (h : m.wf = true) (ha : a < 4096) :
    (m.write a v).wf = true := by
  unfold Memory.write
  split
  next => exact Memory.wf_filter m _ h
  next hv => exact Memory.wf_insert _ a v (Memory.wf_filter m _ h) ha hv (by simp)

/-! ### Several bytes -/

theorem wrapAddr_lt (a : Nat) : wrapAddr a < 4096 := Nat.mod_lt _ (by decide)

theorem wrapAddr_wrapAddr (a : Nat) : wrapAddr (wrapAddr a) = wrapAddr a := Nat.mod_mod _ _

/-- Writing bytes keeps the canonical form. -/
theorem Memory.wf_writeBytes (m : Memory) (a : Nat) (bs : List Byte) (h : m.wf = true) :
    (m.writeBytes a bs).wf = true := by
  induction bs generalizing m a with
  | nil => exact h
  | cons b bs ih => exact ih _ _ (Memory.wf_write m _ b h (wrapAddr_lt a))

/-- An address none of the bytes goes to reads as before. -/
theorem Memory.read_writeBytes_other (m : Memory) (a b : Nat) (bs : List Byte)
    (h : ∀ k, k < bs.length → b ≠ wrapAddr (a + k)) : (m.writeBytes a bs).read b = m.read b := by
  induction bs generalizing m a with
  | nil => rfl
  | cons c bs ih =>
    rw [Memory.writeBytes, ih]
    · rw [Memory.read_write, if_neg (by simpa using h 0 (by simp))]
    · intro k hk
      have := h (k + 1) (by simpa using hk)
      rwa [show a + (k + 1) = a + 1 + k by omega] at this

/-- The `k`-th byte is read back at its address, for up to 4096 bytes. -/
theorem Memory.read_writeBytes_at (m : Memory) (a k : Nat) (bs : List Byte) (hk : k < bs.length)
    (hl : bs.length ≤ 4096) : (m.writeBytes a bs).read (wrapAddr (a + k)) = bs[k] := by
  induction bs generalizing m a k with
  | nil => simp at hk
  | cons c bs ih =>
    simp only [List.length_cons] at hk hl
    rw [Memory.writeBytes]
    cases k with
    | zero =>
      rw [Memory.read_writeBytes_other, Memory.read_write]
      · simp
      · intro j hj
        simp only [wrapAddr]
        omega
    | succ k =>
      rw [show a + (k + 1) = a + 1 + k by omega, ih _ _ _ (by omega) (by omega)]
      simp

/-- What a state's memory reads as after bytes were stored: outside them, as before. -/
theorem State.memRead_memWriteBytes_other (s : State) (a b : Nat) (bs : List Byte)
    (h : ∀ k, k < bs.length → b % 4096 ≠ (a + k) % 4096) :
    (s.memWriteBytes a bs).memRead b = s.memRead b :=
  Memory.read_writeBytes_other s.mem a (wrapAddr b) bs h

/-- What a state's memory reads as after bytes were stored: the bytes. -/
theorem State.memRead_memWriteBytes_at (s : State) (a k : Nat) (bs : List Byte) (hk : k < bs.length)
    (hl : bs.length ≤ 4096) : (s.memWriteBytes a bs).memRead (a + k) = bs[k] :=
  Memory.read_writeBytes_at s.mem a k bs hk hl

/-- A read depends on the memory alone. -/
theorem State.memRead_congr (s t : State) (h : t.mem = s.mem) (a : Nat) : t.memRead a = s.memRead a := by
  simp [State.memRead, h]

/-- A fetched word is the two bytes, the lower address first. -/
theorem State.wordAt_eq (s : State) (a : Nat) : s.wordAt a = joinBytes (s.memRead a) (s.memRead (a + 1)) := rfl

end Sys2Proof.Machine
end

