-- ==== Sys2Proof/Laws/Registers.lean ====
section
/-!
SUPPORT. What the register, stack, timer and key operations do, each said once.
-/

namespace Sys2Proof.Machine

/-! ### General registers -/

/-- A read after a write of a register. -/
@[simp] theorem State.reg_setReg (s : State) (r q : RegNum) (v : Byte) :
    (s.setReg r v).reg q = if q = r then v else s.reg q := by
  simp only [State.reg, State.setReg_x, Fin.getElem_fin, Vector.getElem_set, Fin.ext_iff, eq_comm]

/-- A read after a load of several registers. -/
@[simp] theorem State.reg_loadRegs (s : State) (last q : RegNum) (v : RegNum → Byte) :
    (s.loadRegs last v).reg q = if q ≤ last then v q else s.reg q := by
  simp [State.reg, State.loadRegs]

/-- A register's value depends on the register file alone. -/
theorem State.reg_congr (s t : State) (h : t.x = s.x) (r : RegNum) : t.reg r = s.reg r := by
  simp [State.reg, h]

/-- Result, then flag: the flag wins in register 15 (43_alu R173). -/
@[simp] theorem State.reg_setRegThenFlag (s : State) (r q : RegNum) (v f : Byte) :
    (s.setRegThenFlag r v f).reg q = if q = 15 then f else if q = r then v else s.reg q := by
  simp [State.setRegThenFlag]

/-- The `k`-th of the registers 0 to `last`. -/
theorem State.regsUpTo_getElem (s : State) (last : RegNum) (k : Nat) (hk : k < (s.regsUpTo last).length) :
    (s.regsUpTo last)[k] = s.x[k]'(by
      have : (s.regsUpTo last).length ≤ 16 := by simp [State.regsUpTo]
      omega) := by
  simp [State.regsUpTo]

/-- There are `last + 1` of them. -/
@[simp] theorem State.regsUpTo_length (s : State) (last : RegNum) :
    (s.regsUpTo last).length = last.val + 1 := by
  simp [State.regsUpTo]

/-! ### The call stack -/

/-- A call: the two cases (41_flow R142). -/
theorem State.callTo_cases (s : State) (target : Word) :
    (∃ h : s.sp.val < 16, s.callTo target =
      { s with stack := s.stack.set s.sp.val s.pc, sp := ⟨s.sp.val + 1, by omega⟩, pc := target }) ∨
    (s.sp.val = 16 ∧ s.callTo target = s.report .stackOverflow) := by
  unfold State.callTo
  split
  next h => exact .inl ⟨h, rfl⟩
  next h => exact .inr ⟨by omega, rfl⟩

/-- A return: the two cases (41_flow R140). -/
theorem State.returnFromCall_cases (s : State) :
    (∃ h : 0 < s.sp.val, s.returnFromCall =
      { s with sp := ⟨s.sp.val - 1, by omega⟩, pc := s.stack[s.sp.val - 1]'(by omega) }) ∨
    (s.sp.val = 0 ∧ s.returnFromCall = s.report .stackUnderflow) := by
  unfold State.returnFromCall
  split
  next h => exact .inl ⟨h, rfl⟩
  next h => exact .inr ⟨by omega, rfl⟩

/-! ### Timers -/

/-- One tick of a timer as a number: down by 1, never below 0 (60_exceptions R216). -/
theorem countdownOnce_toNat (v : Byte) : (countdownOnce v).toNat = v.toNat - 1 := by
  unfold countdownOnce
  split
  next h => rw [BitVec.toNat_sub]; have := v.isLt; simp; omega
  next h => omega

/-- `n` ticks of a timer as a number. -/
theorem countdown_toNat (n : Nat) (v : Byte) : (countdown n v).toNat = v.toNat - n := by
  induction n generalizing v with
  | zero => rfl
  | succ n ih => rw [countdown, ih, countdownOnce_toNat]; omega

/-- `n + 1` ticks are one tick and then `n`. -/
theorem State.applyTicks_succ (s : State) (n : Nat) : s.applyTicks (n + 1) = s.timerTick.applyTicks n := rfl

/-- No tick changes nothing. -/
@[simp] theorem State.applyTicks_zero (s : State) : s.applyTicks 0 = s := rfl

/-! ### Keys -/

/-- No key is down exactly when the snapshot is 0. -/
theorem lowestKey_eq_none (key : BitVec 16) : lowestKey key = none ↔ key = 0#16 := by
  unfold lowestKey
  rw [List.find?_eq_none]
  constructor
  · intro h
    apply BitVec.eq_of_getLsbD_eq
    intro i hi
    simpa using h ⟨i, hi⟩ (List.mem_finRange _)
  · rintro rfl
    simp

/-- The key found is down and no lower one is. -/
theorem lowestKey_eq_some (key : BitVec 16) (k : Fin 16) (h : lowestKey key = some k) :
    key.getLsbD k = true ∧ ∀ j, j < k → key.getLsbD j = false := by
  unfold lowestKey at h
  rw [List.find?_eq_some_iff_getElem] at h
  obtain ⟨h1, i, hi, he, hlt⟩ := h
  refine ⟨h1, fun j hj => ?_⟩
  simp only [List.getElem_finRange] at he hlt
  have hik : i = k.val := by simpa using congrArg Fin.val he
  have := hlt j.val (by omega)
  simpa using this

end Sys2Proof.Machine
end

