-- ==== Sys2Proof/Laws/Exec.lean ====
section
/-!
SUPPORT. What executing an instruction and a whole step can do, said once.
-/

namespace Sys2Proof.Machine

/-- Every instruction answers a next state, in every state (40_cycle R125). -/
theorem exec_next (i : Instr) (s : State) : ∃ t, exec i s = .next t := by
  cases i <;> exact ⟨_, rfl⟩

/-- So does whatever was decoded. -/
theorem execDecoded_next (d : Decoded) (s : State) : ∃ t, execDecoded d s = .next t := by
  cases d with
  | instr i => exact exec_next i s
  | unknown w => exact ⟨_, rfl⟩

/-- A step is: begin the cycle, execute what was decoded, apply the cycle's ticks (40_cycle R130). -/
theorem step_of_exec (s t : State) (h : execDecoded (decode s.fetchWord) s.beginCycle = .next t) :
    step s = .next (t.endCycle s.nextInput.ticks) := by
  rw [step, h]

/-- Everything a step can do: it never stops, and its next state is the executed one after the ticks. -/
theorem step_cases (s u : State) (h : step s = .next u) :
    ∃ t, execDecoded (decode s.fetchWord) s.beginCycle = .next t ∧ u = t.endCycle s.nextInput.ticks := by
  obtain ⟨t, ht⟩ := execDecoded_next (decode s.fetchWord) s.beginCycle
  rw [step_of_exec s t ht] at h
  exact ⟨t, ht, by simpa using h.symm⟩

/-- Memory after an instruction: as before, or with bytes stored through the one store operation. -/
theorem exec_mem_cases (i : Instr) (s t : State) (h : exec i s = .next t) :
    t.mem = s.mem ∨ ∃ a bs, t.mem = s.mem.writeBytes a bs := by
  cases i <;> simp only [exec] at h
  case op00EE =>
    obtain rfl : s.returnFromCall = t := by simpa [exec00EE] using h
    rcases s.returnFromCall_cases with ⟨_, e⟩ | ⟨_, e⟩ <;> exact .inl (e ▸ rfl)
  case op2NNN nnn =>
    obtain rfl : s.callTo (zext12 nnn) = t := by simpa [exec2NNN] using h
    rcases s.callTo_cases (zext12 nnn) with ⟨_, e⟩ | ⟨_, e⟩ <;> exact .inl (e ▸ rfl)
  case opFX0A x =>
    rw [execFX0A] at h
    split at h <;> (injection h with h; subst h; exact .inl rfl)
  case opFX33 x => injection h with h; subst h; exact .inr ⟨_, _, rfl⟩
  case opFX55 x => injection h with h; subst h; exact .inr ⟨_, _, rfl⟩
  all_goals (injection h with h; subst h; exact .inl rfl)

/-- An image fits exactly when it has at most 3584 bytes (00_scope R9). -/
theorem imageFits_iff (image : List Byte) : imageFits image = true ↔ image.length ≤ 3584 := by
  exact decide_eq_true_iff

/-- Before the first cycle, an image that fits is stored (60_exceptions R225). -/
theorem loadProgram_next (image : List Byte) (s : State) (hs : s.started = false) (hl : image.length ≤ 3584) :
    loadProgram image s = .next (s.memWriteBytes Config.progOrigin image) := by
  rw [loadProgram, (imageFits_iff image).2 hl, hs]; rfl

/-- Before the first cycle, a port write from `0x200` on is done (60_exceptions R225). -/
theorem loadByte_next (addr : Addr) (data : Byte) (s : State) (hs : s.started = false) (ha : 0x200 ≤ addr.toNat) :
    loadByte addr data s = .next (s.memWrite addr.toNat data) := by
  rw [loadByte, hs, if_neg (by decide), if_neg (by simp only [Config.progOrigin]; omega)]

/-- Everything a port write can do: it writes the byte before the first cycle, from `0x200` on, or is refused. -/
theorem loadByte_cases (addr : Addr) (data : Byte) (s t : State) (h : loadByte addr data s = .next t) :
    s.started = false ∧ Config.progOrigin ≤ addr.toNat ∧ t = s.memWrite addr.toNat data := by
  unfold loadByte at h
  split at h
  · cases h
  · split at h
    · cases h
    · exact ⟨by simpa using ‹¬s.started = true›, by omega, by injection h with h; exact h.symm⟩

/-- Everything a program load can do: it stores the image before the first cycle, if it fits, or is refused. -/
theorem loadProgram_cases (image : List Byte) (s t : State) (h : loadProgram image s = .next t) :
    imageFits image = true ∧ s.started = false ∧ t = s.memWriteBytes Config.progOrigin image := by
  unfold loadProgram at h
  split at h
  · cases h
  · split at h
    · cases h
    · exact ⟨by simpa using ‹¬(!imageFits image) = true›, by simpa using ‹¬s.started = true›,
        by injection h with h; exact h.symm⟩

/-- Storing an image is writing its bytes one after another through the load port (60_exceptions R225). -/
theorem memWriteBytes_cons_of_loadByte (s t : State) (addr : Addr) (b : Byte) (bs : List Byte)
    (h : loadByte addr b s = .next t) :
    s.memWriteBytes addr.toNat (b :: bs) = t.memWriteBytes (addr.toNat + 1) bs := by
  rw [(loadByte_cases addr b s t h).2.2]; rfl

end Sys2Proof.Machine
end

