-- ==== Sys2Proof/Laws/Framebuffer.lean ====
section
/-!
SUPPORT. What the framebuffer operations do: toggling one pixel, and drawing a list of pixels.
-/

namespace Sys2Proof.Machine

/-- No pixel exists from 2048 on. -/
theorem Framebuffer.pixel_ge (fb : Framebuffer) (p : Nat) (h : 2048 ≤ p) : fb.pixel p = false := by
  rw [Framebuffer.pixel, dif_neg (by omega)]

/-- Toggling a pixel flips it and no other. -/
theorem Framebuffer.pixel_toggle (fb : Framebuffer) (p q : Nat) :
    (fb.toggle p).pixel q = (fb.pixel q ^^ decide (q = p ∧ p < 2048)) := by
  unfold Framebuffer.toggle Framebuffer.pixel
  by_cases hq : q / 64 < 32
  · by_cases hp : p / 64 < 32
    · simp only [hp, hq, dif_pos, Vector.getElem_set]
      by_cases he : p / 64 = q / 64
      · rw [if_pos he, BitVec.getLsbD_xor, BitVec.getLsbD_twoPow]
        simp only [he]
        congr 1
        have h64 : p % 64 < 64 := Nat.mod_lt _ (by decide)
        rw [decide_eq_true h64, Bool.true_and]
        congr 1
        simp only [eq_iff_iff]
        constructor
        · intro h; omega
        · rintro ⟨rfl, _⟩; rfl
      · rw [if_neg he, decide_eq_false (by omega), Bool.xor_false]
    · simp only [hp, hq, dif_pos, dif_neg, not_false_eq_true]
      rw [decide_eq_false (by omega), Bool.xor_false]
  · by_cases hp : p / 64 < 32 <;>
      simp only [hp, hq, dif_pos, dif_neg, not_false_eq_true] <;>
      rw [decide_eq_false (by omega)] <;> rfl

/-- What drawing from a given start does to every pixel, for a list that names no pixel twice. -/
theorem drawPixels_fold_pixel (ps : List Nat) (a : Framebuffer × Bool) (hn : ps.Nodup)
    (hb : ∀ p ∈ ps, p < 2048) (q : Nat) :
    (ps.foldl drawPixel a).1.pixel q = (a.1.pixel q ^^ decide (q ∈ ps)) := by
  induction ps generalizing a with
  | nil => simp
  | cons p ps ih =>
    obtain ⟨hp, hn⟩ := List.nodup_cons.1 hn
    rw [List.foldl_cons, ih _ hn fun r hr => hb r (by simp [hr])]
    simp only [drawPixel, Framebuffer.pixel_toggle, hb p (by simp), and_true, List.mem_cons]
    by_cases h1 : q = p
    · subst h1; simp [hp]
    · simp [h1]

/-- Whether drawing from a given start turned a lit pixel off. -/
theorem drawPixels_fold_hit (ps : List Nat) (a : Framebuffer × Bool) (hn : ps.Nodup) :
    (ps.foldl drawPixel a).2 = (a.2 || ps.any fun p => a.1.pixel p) := by
  induction ps generalizing a with
  | nil => simp
  | cons p ps ih =>
    obtain ⟨hp, hn⟩ := List.nodup_cons.1 hn
    rw [List.foldl_cons, ih _ hn]
    simp only [drawPixel, List.any_cons]
    have : (ps.any fun q => (a.1.toggle p).pixel q) = ps.any fun q => a.1.pixel q := by
      rw [Bool.eq_iff_iff, List.any_eq_true, List.any_eq_true]
      refine exists_congr fun q => and_congr_right fun hq => ?_
      have : q ≠ p := fun h => hp (h ▸ hq)
      simp [Framebuffer.pixel_toggle, this]
    rw [this]
    cases a.1.pixel p <;> cases a.2 <;> simp

/-- Every pixel after a draw: flipped if it is in the list (45_display R191). -/
theorem drawPixels_pixel (fb : Framebuffer) (ps : List Nat) (hn : ps.Nodup) (hb : ∀ p ∈ ps, p < 2048) (q : Nat) :
    (drawPixels fb ps).1.pixel q = (fb.pixel q ^^ decide (q ∈ ps)) :=
  drawPixels_fold_pixel ps (fb, false) hn hb q

/-- The collision of a draw: some pixel of the list was lit (45_display R191). -/
theorem drawPixels_hit (fb : Framebuffer) (ps : List Nat) (hn : ps.Nodup) :
    (drawPixels fb ps).2 = ps.any fun p => fb.pixel p := by
  rw [drawPixels, drawPixels_fold_hit ps _ hn, Bool.false_or]

/-- The pixels of one sprite row. -/
theorem mem_spriteRowPixels (x0 yy : Nat) (row : Byte) (p : Nat) :
    p ∈ spriteRowPixels x0 yy row ↔
      ∃ c, c < 8 ∧ x0 + c ≤ 63 ∧ row.getLsbD (7 - c) = true ∧ p = yy * 64 + (x0 + c) := by
  simp only [spriteRowPixels, List.mem_filterMap, List.mem_range]
  constructor
  · rintro ⟨c, hc, h⟩
    split at h
    next hh => exact ⟨c, hc, hh.1, hh.2, by simpa using h.symm⟩
    next => simp at h
  · rintro ⟨c, hc, h1, h2, rfl⟩
    exact ⟨c, hc, by simp [h1, h2]⟩

/-- The pixels of a sprite: row `r` of it at screen row `y0 + r`, clipped at the right and bottom edges. -/
theorem mem_spritePixels (x0 y0 : Nat) (rows : List Byte) (p : Nat) :
    p ∈ spritePixels x0 y0 rows ↔
      ∃ r c, ∃ h : r < rows.length, c < 8 ∧ y0 + r ≤ 31 ∧ x0 + c ≤ 63 ∧
        rows[r].getLsbD (7 - c) = true ∧ p = (y0 + r) * 64 + (x0 + c) := by
  induction rows generalizing y0 with
  | nil => simp [spritePixels]
  | cons row rows ih =>
    rw [spritePixels, List.mem_append, ih]
    constructor
    · rintro (h | ⟨r, c, hr, hc, hy, hx, hb, rfl⟩)
      · split at h
        next hy =>
          obtain ⟨c, hc, hx, hb, rfl⟩ := (mem_spriteRowPixels _ _ _ _).1 h
          exact ⟨0, c, by simp, hc, by omega, hx, hb, by simp⟩
        next => simp at h
      · exact ⟨r + 1, c, by simpa using hr, hc, by omega, hx, by simpa using hb, by
          rw [show y0 + (r + 1) = y0 + 1 + r by omega]⟩
    · rintro ⟨r, c, hr, hc, hy, hx, hb, rfl⟩
      cases r with
      | zero =>
        refine .inl ?_
        rw [if_pos (by omega), mem_spriteRowPixels]
        exact ⟨c, hc, hx, hb, by simp⟩
      | succ r =>
        refine .inr ⟨r, c, by simpa using hr, hc, by omega, hx, by simpa using hb, ?_⟩
        rw [show y0 + (r + 1) = y0 + 1 + r by omega]

theorem spriteRowPixels_nodup (x0 yy : Nat) (row : Byte) : (spriteRowPixels x0 yy row).Nodup := by
  refine List.Nodup.filterMap ?_ List.nodup_range
  intro a b p ha hb
  simp only [Option.mem_def, Option.ite_none_right_eq_some, Option.some.injEq] at ha hb
  omega

/-- No pixel is visited twice (45_display R191). -/
theorem spritePixels_nodup (x0 y0 : Nat) (rows : List Byte) : (spritePixels x0 y0 rows).Nodup := by
  induction rows generalizing y0 with
  | nil => simp [spritePixels]
  | cons row rows ih =>
    rw [spritePixels, List.nodup_append]
    refine ⟨?_, ih _, ?_⟩
    · split
      · exact spriteRowPixels_nodup _ _ _
      · exact List.nodup_nil
    · rintro p hp q hq rfl
      split at hp
      next hy =>
        obtain ⟨c, hc, hx, hb, rfl⟩ := (mem_spriteRowPixels _ _ _ _).1 hp
        obtain ⟨r, d, hr, hd, hy', hx', hb', he⟩ := (mem_spritePixels _ _ _ _).1 hq
        omega
      next => simp at hp

/-- Every pixel of a sprite is on the grid. -/
theorem spritePixels_lt (x0 y0 : Nat) (rows : List Byte) (p : Nat) (h : p ∈ spritePixels x0 y0 rows) : p < 2048 := by
  obtain ⟨r, c, hr, hc, hy, hx, hb, rfl⟩ := (mem_spritePixels _ _ _ _).1 h
  omega

end Sys2Proof.Machine
end

