-- ==== Sys2Proof/Laws/PerInstr.lean ====
section
/-!
SUPPORT. Laws about every instruction as a piece of text, one lemma per constructor: `EncodesRow`, that its canonical word
selects its own row of the opcode map (30_encoding R96) and spells the ignored bits as 0 (R97, R101).
-/

namespace Sys2Proof

/-! ### An encoded word under a row's mask -/

theorem encodeXNN_and (c : BitVec 4) (x : RegNum) (nn m : Byte) :
    encodeXNN c x nn &&& encodeXNN 0xF#4 0 m = encodeXNN c 0 (nn &&& m) := by
  have h := @BitVec.and_append 8 8 (c ++ nibble x) (0xF#4 ++ nibble 0) nn m
  rw [@BitVec.and_append 4 4 c 0xF#4 (nibble x) (nibble 0), show c &&& 0xF#4 = c from BitVec.and_allOnes,
    show nibble x &&& nibble 0 = nibble 0 by simp [nibble]] at h
  exact h

theorem encodeXYN_and (c : BitVec 4) (x y : RegNum) (n m : BitVec 4) :
    encodeXYN c x y n &&& encodeXYN 0xF#4 0 0 m = encodeXYN c 0 0 (n &&& m) := by
  have h := @BitVec.and_append 12 4 (c ++ nibble x ++ nibble y) (0xF#4 ++ nibble 0 ++ nibble 0) n m
  rw [@BitVec.and_append 8 4 (c ++ nibble x) (0xF#4 ++ nibble 0) (nibble y) (nibble 0),
    @BitVec.and_append 4 4 c 0xF#4 (nibble x) (nibble 0), show c &&& 0xF#4 = c from BitVec.and_allOnes,
    show nibble x &&& nibble 0 = nibble 0 by simp [nibble],
    show nibble y &&& nibble 0 = nibble 0 by simp [nibble]] at h
  exact h

theorem encodeNNN_and (c : BitVec 4) (nnn : Addr) :
    encodeNNN c nnn &&& encodeNNN 0xF#4 0#12 = encodeNNN c 0#12 := by
  have h := @BitVec.and_append 4 12 c 0xF#4 nnn 0#12
  rw [show c &&& 0xF#4 = c from BitVec.and_allOnes, BitVec.and_zero] at h
  exact h

/-! ### Canonical spellings -/

theorem canonicalWord_of_class (w : Word) (h0 : classField w ≠ 0x0#4) (h5 : classField w ≠ 0x5#4)
    (h9 : classField w ≠ 0x9#4) : canonicalWord w = true := by
  unfold classField at h0 h5 h9
  simp [canonicalWord, canonicalClass0, canonicalClass5, canonicalClass9, h0, h5, h9]

theorem canonicalWord_of_nField (w : Word) (h0 : classField w ≠ 0x0#4) (hn : nField w = 0x0#4) :
    canonicalWord w = true := by
  unfold classField at h0
  unfold nField at hn
  simp [canonicalWord, canonicalClass0, canonicalClass5, canonicalClass9, h0, hn]

namespace Laws.EncodesRow

/-- The instruction's canonical word selects its row and is canonical. -/
def Statement (i : Instr) : Prop :=
  encode i &&& (rowOf i).mask = (rowOf i).value ∧ canonicalWord (encode i) = true

theorem ofXNN (c : BitVec 4) (x : RegNum) (nn : Byte) (h0 : c ≠ 0x0#4) (h5 : c ≠ 0x5#4) (h9 : c ≠ 0x9#4) :
    canonicalWord (encodeXNN c x nn) = true :=
  canonicalWord_of_class _ (by simpa using h0) (by simpa using h5) (by simpa using h9)

theorem ofXYN (c : BitVec 4) (x y : RegNum) (n : BitVec 4) (h0 : c ≠ 0x0#4) (h5 : c ≠ 0x5#4) (h9 : c ≠ 0x9#4) :
    canonicalWord (encodeXYN c x y n) = true :=
  canonicalWord_of_class _ (by simpa using h0) (by simpa using h5) (by simpa using h9)

theorem ofNNN (c : BitVec 4) (nnn : Addr) (h0 : c ≠ 0x0#4) (h5 : c ≠ 0x5#4) (h9 : c ≠ 0x9#4) :
    canonicalWord (encodeNNN c nnn) = true :=
  canonicalWord_of_class _ (by simpa using h0) (by simpa using h5) (by simpa using h9)

theorem op00E0 : Statement .op00E0 := ⟨by decide, by decide⟩

theorem op00EE : Statement .op00EE := ⟨by decide, by decide⟩

theorem op1NNN (nnn : Addr) : Statement (.op1NNN nnn) :=
  ⟨(encodeNNN_and _ nnn).trans rfl, ofNNN _ nnn (by decide) (by decide) (by decide)⟩

theorem op2NNN (nnn : Addr) : Statement (.op2NNN nnn) :=
  ⟨(encodeNNN_and _ nnn).trans rfl, ofNNN _ nnn (by decide) (by decide) (by decide)⟩

theorem op3XNN (x : RegNum) (nn : Byte) : Statement (.op3XNN x nn) :=
  ⟨(encodeXNN_and _ x nn 0x00#8).trans (by rw [BitVec.and_zero]; rfl), ofXNN _ x nn (by decide) (by decide) (by decide)⟩

theorem op4XNN (x : RegNum) (nn : Byte) : Statement (.op4XNN x nn) :=
  ⟨(encodeXNN_and _ x nn 0x00#8).trans (by rw [BitVec.and_zero]; rfl), ofXNN _ x nn (by decide) (by decide) (by decide)⟩

theorem op5XY0 (x y : RegNum) : Statement (.op5XY0 x y) :=
  ⟨(encodeXYN_and _ x y _ 0x0#4).trans rfl, canonicalWord_of_nField _ (by simp [encode]) (by simp [encode])⟩

theorem op6XNN (x : RegNum) (nn : Byte) : Statement (.op6XNN x nn) :=
  ⟨(encodeXNN_and _ x nn 0x00#8).trans (by rw [BitVec.and_zero]; rfl), ofXNN _ x nn (by decide) (by decide) (by decide)⟩

theorem op7XNN (x : RegNum) (nn : Byte) : Statement (.op7XNN x nn) :=
  ⟨(encodeXNN_and _ x nn 0x00#8).trans (by rw [BitVec.and_zero]; rfl), ofXNN _ x nn (by decide) (by decide) (by decide)⟩

theorem op8XY0 (x y : RegNum) : Statement (.op8XY0 x y) :=
  ⟨(encodeXYN_and _ x y _ 0xF#4).trans rfl, ofXYN _ x y _ (by decide) (by decide) (by decide)⟩

theorem op8XY1 (x y : RegNum) : Statement (.op8XY1 x y) :=
  ⟨(encodeXYN_and _ x y _ 0xF#4).trans rfl, ofXYN _ x y _ (by decide) (by decide) (by decide)⟩

theorem op8XY2 (x y : RegNum) : Statement (.op8XY2 x y) :=
  ⟨(encodeXYN_and _ x y _ 0xF#4).trans rfl, ofXYN _ x y _ (by decide) (by decide) (by decide)⟩

theorem op8XY3 (x y : RegNum) : Statement (.op8XY3 x y) :=
  ⟨(encodeXYN_and _ x y _ 0xF#4).trans rfl, ofXYN _ x y _ (by decide) (by decide) (by decide)⟩

theorem op8XY4 (x y : RegNum) : Statement (.op8XY4 x y) :=
  ⟨(encodeXYN_and _ x y _ 0xF#4).trans rfl, ofXYN _ x y _ (by decide) (by decide) (by decide)⟩

theorem op8XY5 (x y : RegNum) : Statement (.op8XY5 x y) :=
  ⟨(encodeXYN_and _ x y _ 0xF#4).trans rfl, ofXYN _ x y _ (by decide) (by decide) (by decide)⟩

theorem op8XY6 (x y : RegNum) : Statement (.op8XY6 x y) :=
  ⟨(encodeXYN_and _ x y _ 0xF#4).trans rfl, ofXYN _ x y _ (by decide) (by decide) (by decide)⟩

theorem op8XY7 (x y : RegNum) : Statement (.op8XY7 x y) :=
  ⟨(encodeXYN_and _ x y _ 0xF#4).trans rfl, ofXYN _ x y _ (by decide) (by decide) (by decide)⟩

theorem op8XYE (x y : RegNum) : Statement (.op8XYE x y) :=
  ⟨(encodeXYN_and _ x y _ 0xF#4).trans rfl, ofXYN _ x y _ (by decide) (by decide) (by decide)⟩

theorem op9XY0 (x y : RegNum) : Statement (.op9XY0 x y) :=
  ⟨(encodeXYN_and _ x y _ 0x0#4).trans rfl, canonicalWord_of_nField _ (by simp [encode]) (by simp [encode])⟩

theorem opANNN (nnn : Addr) : Statement (.opANNN nnn) :=
  ⟨(encodeNNN_and _ nnn).trans rfl, ofNNN _ nnn (by decide) (by decide) (by decide)⟩

theorem opBNNN (nnn : Addr) : Statement (.opBNNN nnn) :=
  ⟨(encodeNNN_and _ nnn).trans rfl, ofNNN _ nnn (by decide) (by decide) (by decide)⟩

theorem opCXNN (x : RegNum) (nn : Byte) : Statement (.opCXNN x nn) :=
  ⟨(encodeXNN_and _ x nn 0x00#8).trans (by rw [BitVec.and_zero]; rfl), ofXNN _ x nn (by decide) (by decide) (by decide)⟩

theorem opDXYN (x y : RegNum) (n : Fin 16) : Statement (.opDXYN x y n) :=
  ⟨(encodeXYN_and _ x y _ 0x0#4).trans (by rw [BitVec.and_zero]; rfl), ofXYN _ x y _ (by decide) (by decide) (by decide)⟩

theorem opEX9E (x : RegNum) : Statement (.opEX9E x) :=
  ⟨(encodeXNN_and _ x _ 0xFF#8).trans rfl, ofXNN _ x _ (by decide) (by decide) (by decide)⟩

theorem opEXA1 (x : RegNum) : Statement (.opEXA1 x) :=
  ⟨(encodeXNN_and _ x _ 0xFF#8).trans rfl, ofXNN _ x _ (by decide) (by decide) (by decide)⟩

theorem opFX07 (x : RegNum) : Statement (.opFX07 x) :=
  ⟨(encodeXNN_and _ x _ 0xFF#8).trans rfl, ofXNN _ x _ (by decide) (by decide) (by decide)⟩

theorem opFX0A (x : RegNum) : Statement (.opFX0A x) :=
  ⟨(encodeXNN_and _ x _ 0xFF#8).trans rfl, ofXNN _ x _ (by decide) (by decide) (by decide)⟩

theorem opFX15 (x : RegNum) : Statement (.opFX15 x) :=
  ⟨(encodeXNN_and _ x _ 0xFF#8).trans rfl, ofXNN _ x _ (by decide) (by decide) (by decide)⟩

theorem opFX18 (x : RegNum) : Statement (.opFX18 x) :=
  ⟨(encodeXNN_and _ x _ 0xFF#8).trans rfl, ofXNN _ x _ (by decide) (by decide) (by decide)⟩

theorem opFX1E (x : RegNum) : Statement (.opFX1E x) :=
  ⟨(encodeXNN_and _ x _ 0xFF#8).trans rfl, ofXNN _ x _ (by decide) (by decide) (by decide)⟩

theorem opFX33 (x : RegNum) : Statement (.opFX33 x) :=
  ⟨(encodeXNN_and _ x _ 0xFF#8).trans rfl, ofXNN _ x _ (by decide) (by decide) (by decide)⟩

theorem opFX55 (x : RegNum) : Statement (.opFX55 x) :=
  ⟨(encodeXNN_and _ x _ 0xFF#8).trans rfl, ofXNN _ x _ (by decide) (by decide) (by decide)⟩

theorem opFX65 (x : RegNum) : Statement (.opFX65 x) :=
  ⟨(encodeXNN_and _ x _ 0xFF#8).trans rfl, ofXNN _ x _ (by decide) (by decide) (by decide)⟩

end Laws.EncodesRow

end Sys2Proof
end

