-- ==== Sys2Proof/Tests/Slice0.lean ====
section
/-!
SUPPORT. Small tests of this model, with expected values from spec/ (the worked examples S<n> and vectors T<n> of
95_test_vectors, computed there from the rules), and for every statement that has hypotheses a state and operands that
meet them.
-/

open Sys2Proof Sys2Proof.Machine Sys2Proof.Certificates

namespace Sys2Proof.Tests

/-! ### Helpers -/

/-- The reset state with some registers, the index register and memory bytes given. -/
def given (regs : List (RegNum × Byte)) (index : Word := 0#16) (cells : Memory := []) : State :=
  { regs.foldl (fun s p => s.setReg p.1 p.2) State.reset with I := index, mem := cells }

/-- The state after one cycle that runs the word `w` in `s` with the given inputs. -/
def after (s : State) (w : Nat) (keys : BitVec 16 := 0#16) (rnd : Byte := 0#8) (ticks : Nat := 0) : Option State :=
  match step (({ s with inputs := [⟨keys, rnd, ticks⟩] } : State).withFetchWord 16 w) with
  | .next t => some t
  | _ => none

/-- The reset state with `n` live stack slots, the top one holding `top`. -/
def deep (n : Fin 17) (top : Word) : State :=
  { State.reset with sp := n, stack := (Vector.replicate 16 0x0111#16).set! (n.val - 1) top }

/-! ### Well-formedness: each check refuses an ill-formed term and accepts a well-formed one -/

theorem test_wf_class0_x : canonicalClass0 0x0FEE#16 = false ∧ canonicalClass0 0x00EE#16 = true := by decide
theorem test_wf_class5_n : canonicalClass5 0x5121#16 = false ∧ canonicalClass5 0x5120#16 = true := by decide
theorem test_wf_class9_n : canonicalClass9 0x912F#16 = false ∧ canonicalClass9 0x9120#16 = true := by decide
theorem test_wf_word : ([0x0FE0#16, 0x5121#16, 0x912F#16].map canonicalWord) = [false, false, false] := by decide
theorem test_wf_image : imageFits (List.replicate 3584 0#8) = true ∧ imageFits (List.replicate 3585 0#8) = false := by
  simp only [imageFits, List.length_replicate, Config.maxImage]; decide

/-! ### Decoding: every row's word written out bit by bit from its encoding (30_encoding section 2 and 3) -/

theorem test_decode_00E0 : decode 0b0000000011100000#16 = .instr .op00E0 := by decide
theorem test_decode_00EE : decode 0b0000000011101110#16 = .instr .op00EE := by decide
theorem test_decode_1NNN : decode 0b0001101010111100#16 = .instr (.op1NNN 0xABC#12) := by decide
theorem test_decode_2NNN : decode 0b0010000100100011#16 = .instr (.op2NNN 0x123#12) := by decide
theorem test_decode_3XNN : decode 0b0011111110000001#16 = .instr (.op3XNN 15 0x81#8) := by decide
theorem test_decode_4XNN : decode 0b0100001100010001#16 = .instr (.op4XNN 3 0x11#8) := by decide
theorem test_decode_5XY0 : decode 0b0101000100100000#16 = .instr (.op5XY0 1 2) := by decide
theorem test_decode_6XNN : decode 0b0110101001111111#16 = .instr (.op6XNN 10 0x7F#8) := by decide
theorem test_decode_7XNN : decode 0b0111010111111110#16 = .instr (.op7XNN 5 0xFE#8) := by decide
theorem test_decode_8XY0 : decode 0b1000101011110000#16 = .instr (.op8XY0 10 15) := by decide
theorem test_decode_8XY1 : decode 0b1000000100100001#16 = .instr (.op8XY1 1 2) := by decide
theorem test_decode_8XY2 : decode 0b1000000100100010#16 = .instr (.op8XY2 1 2) := by decide
theorem test_decode_8XY3 : decode 0b1000000100100011#16 = .instr (.op8XY3 1 2) := by decide
theorem test_decode_8XY4 : decode 0b1000000100100100#16 = .instr (.op8XY4 1 2) := by decide
theorem test_decode_8XY5 : decode 0b1000000100100101#16 = .instr (.op8XY5 1 2) := by decide
theorem test_decode_8XY6 : decode 0b1000000100100110#16 = .instr (.op8XY6 1 2) := by decide
theorem test_decode_8XY7 : decode 0b1000000100100111#16 = .instr (.op8XY7 1 2) := by decide
theorem test_decode_8XYE : decode 0b1000000100101110#16 = .instr (.op8XYE 1 2) := by decide
theorem test_decode_9XY0 : decode 0b1001010001110000#16 = .instr (.op9XY0 4 7) := by decide
theorem test_decode_ANNN : decode 0b1010001100000000#16 = .instr (.opANNN 0x300#12) := by decide
theorem test_decode_BNNN : decode 0b1011001000010000#16 = .instr (.opBNNN 0x210#12) := by decide
theorem test_decode_CXNN : decode 0b1100000100001111#16 = .instr (.opCXNN 1 0x0F#8) := by decide
theorem test_decode_DXYN : decode 0b1101000100100011#16 = .instr (.opDXYN 1 2 3) := by decide
theorem test_decode_EX9E : decode 0b1110001010011110#16 = .instr (.opEX9E 2) := by decide
theorem test_decode_EXA1 : decode 0b1110001010100001#16 = .instr (.opEXA1 2) := by decide
theorem test_decode_FX07 : decode 0b1111000100000111#16 = .instr (.opFX07 1) := by decide
theorem test_decode_FX0A : decode 0b1111010100001010#16 = .instr (.opFX0A 5) := by decide
theorem test_decode_FX15 : decode 0b1111011000010101#16 = .instr (.opFX15 6) := by decide
theorem test_decode_FX18 : decode 0b1111010000011000#16 = .instr (.opFX18 4) := by decide
theorem test_decode_FX1E : decode 0b1111001100011110#16 = .instr (.opFX1E 3) := by decide
theorem test_decode_FX33 : decode 0b1111010000110011#16 = .instr (.opFX33 4) := by decide
theorem test_decode_FX55 : decode 0b1111111101010101#16 = .instr (.opFX55 15) := by decide
theorem test_decode_FX65 : decode 0b1111001001100101#16 = .instr (.opFX65 2) := by decide

/-- Words of T160 to T169: none decodes to an instruction. -/
theorem test_decode_unknown :
    ([0x0000#16, 0x0123#16, 0x00E1#16, 0x00FE#16, 0x8128#16, 0x812F#16, 0xE200#16, 0xE29F#16, 0xE2A0#16, 0xF029#16,
      0xF175#16, 0xF185#16, 0xF130#16, 0xF1FF#16, 0xF01F#16, 0xF056#16, 0xF066#16].all
        fun w => decode w = .unknown w) = true := by decide

/-- One instruction of each constructor. -/
def oneOfEach : List Instr :=
  List.append [.op00E0, .op00EE, .op1NNN 0, .op2NNN 0, .op3XNN 0 0, .op4XNN 0 0, .op5XY0 0 0, .op6XNN 0 0, .op7XNN 0 0] <|
  List.append [.op8XY0 0 0, .op8XY1 0 0, .op8XY2 0 0, .op8XY3 0 0, .op8XY4 0 0, .op8XY5 0 0, .op8XY6 0 0] <|
  List.append [.op8XY7 0 0, .op8XYE 0 0, .op9XY0 0 0, .opANNN 0, .opBNNN 0, .opCXNN 0 0, .opDXYN 0 0 0, .opEX9E 0] <|
  [.opEXA1 0, .opFX07 0, .opFX0A 0, .opFX15 0, .opFX18 0, .opFX1E 0, .opFX33 0, .opFX55 0, .opFX65 0]

/-- No two rows of the opcode map overlap: their values differ in a bit that both masks examine (30_encoding R96). -/
theorem test_rows_disjoint :
    (oneOfEach.map rowOf).Pairwise fun r q => (r.value ^^^ q.value) &&& (r.mask &&& q.mask) ≠ 0#16 := by decide

/-- The number of a table row, its free bits 0, decodes to that row's instruction. -/
theorem test_decodeTableWord :
    (oneOfEach.all fun i => decodeTableWord 16 (rowOf i).value.toNat = some i) = true := by decide

/-- From reset, with the row's word placed, the first step runs that instruction. -/
theorem test_first_step_runs_it :
    (match step (State.reset.withFetchWord 16 0x6A7F) with | .next t => t.reg 10 | _ => 0#8) = 0x7F#8 := by decide

/-! ### The cycle -/

theorem test_T1_empty_memory :
    (after State.reset 0x0000).map (fun t => (t.pc, t.executedOpcode, t.pcBefore, t.diag)) =
      some (0x0202#16, 0x0000#16, 0x0200#16, .unknownOpcode) := by decide
theorem test_T4_fetch_wraps :
    (match step { State.reset with pc := 0x0FFF#16, mem := [(0, 0x07#8), (0xFFF, 0x61#8)], inputs := [⟨0, 0, 0⟩] } with
      | .next t => some (t.executedOpcode, t.reg 1, t.pc) | _ => none) =
      some (0x6107#16, 0x07#8, 0x1001#16) := by decide
theorem test_T7_ticks_clamp :
    (after { State.reset with DT := 1#8, ST := 5#8 } 0x6000 (ticks := 2)).map (fun t => (t.DT, t.ST)) =
      some (0#8, 3#8) := by decide

/-! ### Control transfer -/

theorem test_T20_1ABC : (after State.reset 0x1ABC).map State.pc = some 0x0ABC#16 := by decide
theorem test_T25_2300 :
    (after (deep 15 0x0AAA#16) 0x2300).map (fun t => (t.pc, t.sp, t.stack[15])) =
      some (0x0300#16, 16, 0x0202#16) := by decide
theorem test_T26_2300_full :
    (after (deep 16 0x0AAA#16) 0x2300).map (fun t => (t.pc, t.sp, t.stack[15], t.diag)) =
      some (0x0202#16, 16, 0x0AAA#16, .stackOverflow) := by decide
theorem test_T29_0FEE :
    (after (deep 3 0x1234#16) 0x0FEE).map (fun t => (t.pc, t.sp, t.stack[2])) =
      some (0x1234#16, 2, 0x1234#16) := by decide
theorem test_T28_00EE_empty :
    (after State.reset 0x00EE).map (fun t => (t.pc, t.sp, t.diag)) = some (0x0202#16, 0, .stackUnderflow) := by decide
theorem test_T31_BFFF : (after (given [(0, 0xFF#8)]) 0xBFFF).map State.pc = some 0x10FE#16 := by decide
theorem test_T32_B210 : (after (given [(0, 0x10#8), (2, 0x80#8)]) 0xB210).map State.pc = some 0x0220#16 := by decide

/-! ### Skips -/

theorem test_T42_3F01 : (after (given [(15, 1#8)]) 0x3F01).map State.pc = some 0x0204#16 := by decide
theorem test_T44_4310 : (after (given [(3, 0x10#8)]) 0x4310).map State.pc = some 0x0202#16 := by decide
theorem test_T48_5121 : (after (given [(1, 4#8), (2, 4#8)]) 0x5121).map State.pc = some 0x0204#16 := by decide
theorem test_T50_912F : (after (given [(1, 4#8), (2, 4#8)]) 0x912F).map State.pc = some 0x0202#16 := by decide
theorem test_T53_E29E : (after (given [(2, 7#8)]) 0xE29E (keys := 0xFF7F#16)).map State.pc = some 0x0202#16 := by decide
theorem test_T54_E29E : (after (given [(2, 0x17#8)]) 0xE29E (keys := 0x80#16)).map State.pc = some 0x0204#16 := by decide
theorem test_T56_E2A1 : (after (given [(2, 0xFF#8)]) 0xE2A1 (keys := 0x8000#16)).map State.pc = some 0x0202#16 := by decide

/-! ### Loads and ALU -/

/-- `Vx` and `VF` after one cycle. -/
def vxvf (x : RegNum) (t : Option State) : Option (Byte × Byte) := t.map fun t => (t.reg x, t.reg 15)

theorem test_T60_6A7F : vxvf 10 (after State.reset 0x6A7F) = some (0x7F#8, 0#8) := by decide
theorem test_S2_7002 : vxvf 0 (after (given [(0, 0xFF#8)]) 0x7002) = some (0x01#8, 0#8) := by decide
theorem test_T63_8AF0 : vxvf 10 (after (given [(15, 1#8)]) 0x8AF0) = some (1#8, 1#8) := by decide
theorem test_T64_8121 : vxvf 1 (after (given [(1, 0xF0#8), (2, 0x0F#8), (15, 1#8)]) 0x8121) = some (0xFF#8, 1#8) := by
  decide
theorem test_T65_8122 : vxvf 1 (after (given [(1, 0xF0#8), (2, 0x3C#8), (15, 1#8)]) 0x8122) = some (0x30#8, 1#8) := by
  decide
theorem test_T66_8123 : vxvf 1 (after (given [(1, 0xF0#8), (2, 0x3C#8), (15, 1#8)]) 0x8123) = some (0xCC#8, 1#8) := by
  decide
theorem test_T68_8124 : vxvf 1 (after (given [(1, 0xFE#8), (2, 1#8), (15, 1#8)]) 0x8124) = some (0xFF#8, 0#8) := by decide
theorem test_T71_8F14 : vxvf 15 (after (given [(1, 0x20#8), (15, 0xF0#8)]) 0x8F14) = some (1#8, 1#8) := by decide
theorem test_S3_8125 : vxvf 1 (after (given [(1, 5#8), (2, 10#8), (15, 1#8)]) 0x8125) = some (0xFB#8, 0#8) := by decide
theorem test_T77_8F15 : vxvf 15 (after (given [(1, 3#8), (15, 5#8)]) 0x8F15) = some (1#8, 1#8) := by decide
theorem test_T78_8126 : vxvf 1 (after (given [(1, 0xFF#8), (2, 5#8)]) 0x8126) = some (2#8, 1#8) := by decide
theorem test_T82_81F6 : vxvf 1 (after (given [(15, 3#8)]) 0x81F6) = some (1#8, 1#8) := by decide
theorem test_S3_8127 : vxvf 1 (after (given [(1, 10#8), (2, 5#8), (15, 1#8)]) 0x8127) = some (0xFB#8, 0#8) := by decide
theorem test_T84_8117 : vxvf 1 (after (given [(1, 9#8)]) 0x8117) = some (0#8, 1#8) := by decide
theorem test_T85_812E : vxvf 1 (after (given [(2, 0x81#8)]) 0x812E) = some (2#8, 1#8) := by decide
theorem test_T87_8F1E : vxvf 15 (after (given [(1, 0x40#8), (15, 0x55#8)]) 0x8F1E) = some (0#8, 0#8) := by decide
theorem test_T88_C10F : vxvf 1 (after (given [(1, 0xAA#8)]) 0xC10F (rnd := 0xB7#8)) = some (7#8, 0#8) := by decide

/-! ### Index register and memory -/

theorem test_T100_A300 : (after (given [] 0xFFFF#16) 0xA300).map State.I = some 0x0300#16 := by decide
theorem test_T103_F31E :
    (after (given [(3, 2#8), (15, 7#8)] 0xFFFF#16) 0xF31E).map (fun t => (t.I, t.reg 15)) = some (1#16, 7#8) := by decide
theorem test_T105_F433 :
    (after (given [(4, 0xFF#8)] 0x0FFE#16) 0xF433).map (fun t => (t.memRead 0xFFE, t.memRead 0xFFF, t.memRead 0, t.I)) =
      some (2#8, 5#8, 5#8, 0x0FFE#16) := by decide
theorem test_T106_F433 :
    (after (given [(4, 0x64#8)] 0x1300#16) 0xF433).map (fun t => (t.memRead 0x300, t.memRead 0x301, t.memRead 0x302)) =
      some (1#8, 0#8, 0#8) := by decide
theorem test_T107_F055 :
    (after (given [(0, 0xAB#8), (1, 0xCD#8)] 0x0300#16) 0xF055).map
      (fun t => (t.memRead 0x300, t.memRead 0x301, t.I)) = some (0xAB#8, 0#8, 0x0300#16) := by decide
theorem test_T111_F155_on_itself :
    (after (given [(0, 0x6A#8), (1, 0x55#8)] 0x0200#16) 0xF155).map (fun t => (t.wordAt 0x200, t.executedOpcode, t.pc)) =
      some (0x6A55#16, 0xF155#16, 0x0202#16) := by decide
theorem test_T109_F165 :
    (after (given [(2, 0x77#8), (3, 0x88#8)] 0x0300#16 [(0x300, 1#8), (0x301, 2#8), (0x302, 3#8)]) 0xF165).map
      (fun t => (t.reg 0, t.reg 1, t.reg 2, t.reg 3, t.I)) = some (1#8, 2#8, 0x77#8, 0x88#8, 0x0300#16) := by decide

/-! ### Framebuffer -/

/-- Pixels `(x, y)` and the collision flag after one cycle. -/
def lit (ps : List (Nat × Nat)) (t : Option State) : Option (List Bool × Byte) :=
  t.map fun t => (ps.map fun p => t.pixel (p.2 * 64 + p.1), t.reg 15)

theorem test_T123_D011_clips :
    lit [(59, 0), (60, 0), (63, 0), (0, 0), (3, 0), (0, 1)]
      (after (given [(0, 60#8)] 0x0300#16 [(0x300, 0xFF#8)]) 0xD011) =
      some ([false, true, true, false, false, false], 0#8) := by decide
theorem test_T128_D011_collides :
    lit [(0, 0), (1, 0), (2, 0)]
      (after { given [] 0x0300#16 [(0x300, 0xA0#8)] with fb := (Vector.replicate 32 0#64).set! 0 0b11#64 } 0xD011) =
      some ([false, true, true], 1#8) := by decide
theorem test_T136_0FE0 :
    lit [(0, 0), (63, 0), (0, 31), (63, 31)]
      (after { State.reset with fb := Vector.replicate 32 (BitVec.allOnes 64) } 0x0FE0) =
      some ([false, false, false, false], 0#8) := by decide

/-! ### Timers and keys -/

theorem test_T141_F107 :
    (after { State.reset with DT := 3#8 } 0xF107 (ticks := 1)).map (fun t => (t.reg 1, t.DT)) = some (3#8, 2#8) := by decide
theorem test_T143_F015 : (after (given [(0, 3#8)]) 0xF015 (ticks := 1)).map State.DT = some 2#8 := by decide
theorem test_T145_F418 :
    (after (given [(4, 0x1E#8)]) 0xF418).map (fun t => (t.ST, t.toneOn)) = some (0x1E#8, true) := by decide
theorem test_T150_F50A_waits :
    (after { given [(5, 9#8)] with DT := 2#8 } 0xF50A (ticks := 1)).map (fun t => (t.pc, t.reg 5, t.DT)) =
      some (0x0200#16, 9#8, 1#8) := by decide
theorem test_T152_F50A_lowest :
    (after (given [(5, 9#8)]) 0xF50A (keys := 0x0880#16)).map (fun t => (t.pc, t.reg 5)) =
      some (0x0202#16, 7#8) := by decide

/-! ### Reset and load -/

theorem test_T181_load :
    (match boot [0x12#8, 0x00#8] with | .next t => some t.mem | _ => none) = some [(0x200, 0x12#8)] := by decide
theorem test_load_port_refusals :
    (loadByte 0x1FF#12 0#8 State.reset matches .refused (.loadBelowOrigin _)) = true ∧
    (loadByte 0x200#12 0#8 State.reset.beginCycle matches .refused .loadAfterStart) = true ∧
    (loadProgram [0#8] State.reset.beginCycle matches .refused .loadAfterStart) = true := by decide

/-! ### Witnesses: a state and operands that meet the hypotheses of each statement, each clause at a boundary value -/

theorem witness_DecodeSelectsTheRowTheWordMatches :
    decode 0x5127#16 = .instr (.op5XY0 1 2) ∧ 0x5127#16 &&& (rowOf (.op5XY0 0 0)).mask = (rowOf (.op5XY0 0 0)).value := by
  decide
theorem witness_UnknownOpcodesAreExactlyTheListedWords :
    decode 0x0000#16 = .unknown 0x0000#16 ∧ decode 0x8AB8#16 = .unknown 0x8AB8#16 ∧
    decode 0xEFFF#16 = .unknown 0xEFFF#16 ∧ decode 0xFFFF#16 = .unknown 0xFFFF#16 := by decide
theorem witness_CanonicalWordsAreTheEncodersWords :
    decode 0x9120#16 = .instr (.op9XY0 1 2) ∧ canonicalWord 0x9120#16 = true ∧
    decode 0x912F#16 = .instr (.op9XY0 1 2) ∧ canonicalWord 0x912F#16 = false := by decide

/-- A state about to run `w`, with one cycle's inputs scheduled. -/
def about (s : State) (w : Nat) : State := ({ s with inputs := [⟨0, 0, 1⟩] } : State).withFetchWord 16 w

theorem witness_StepRunsTheDecodedInstruction :
    NextIs (about State.reset 0x6A7F) (.op6XNN 10 0x7F#8) ∧
    (exec (.op6XNN 10 0x7F#8) (about State.reset 0x6A7F).beginCycle matches .next _) = true ∧
    (about State.reset 0x6A7F).inputs = ⟨0, 0, 1⟩ :: [] ∧ State.reset.inputs = [] :=
  ⟨by unfold NextIs; decide, by decide, by decide, by decide⟩
theorem witness_StepOnAnUnknownOpcodeOnlyAdvances :
    decodeBytes (State.reset.memRead State.reset.pc.toNat) (State.reset.memRead (State.reset.pc.toNat + 1)) =
      .unknown 0x0000#16 := by decide
theorem witness_FetchIsBigEndianAndWraps : ({ State.reset with pc := 0xFFFF#16 } : State).pc.toNat % 4096 = 0xFFF := by
  decide
theorem witness_OnlyTheListedInstructionsWriteAComponent :
    exec (.op6XNN 15 0xFF#8) State.reset = .next (State.reset.setReg 15 0xFF#8) ∧
    mayWritePc (.op6XNN 15 0xFF#8) = false ∧ mayWriteMem (.op6XNN 15 0xFF#8) = false ∧
    mayWriteIndex (.op6XNN 15 0xFF#8) = false ∧ mayWriteSlots (.op6XNN 15 0xFF#8) = false ∧
    mayWriteSlots .op00EE = false ∧ mayWriteSp (.op6XNN 15 0xFF#8) = false ∧
    mayWriteFb (.op6XNN 15 0xFF#8) = false ∧ mayWriteDelay (.op6XNN 15 0xFF#8) = false ∧
    mayWriteSound (.op6XNN 15 0xFF#8) = false ∧ mayReport (.op6XNN 15 0xFF#8) = false :=
  ⟨rfl, by decide⟩
theorem witness_OnlyTheListedRegistersAreWritten :
    (exec (.opFX65 14) State.reset matches .next _) = true ∧ 15 ∉ writtenRegs (.opFX65 14) := by decide
theorem witness_OnlyCXNNDependsOnTheRandomByte :
    (∀ x nn, Instr.op00E0 ≠ .opCXNN x nn) ∧
    exec .op00E0 State.reset = .next (State.reset.setFb (Vector.replicate 32 0#64)) :=
  ⟨fun _ _ h => Instr.noConfusion h, rfl⟩

/-- The state `deep 1 0x0300` with other values in the dead slots 1 and 15. -/
def deadSlots : State :=
  { deep 1 0x0300#16 with stack := ((deep 1 0x0300#16).stack.set! 1 0xAAAA#16).set! 15 0xBBBB#16 }

theorem witness_DeadStackSlotsAreUnobservable :
    AgreeButDeadSlots (deep 1 0x0300#16) deadSlots ∧ deadSlots ≠ deep 1 0x0300#16 :=
  ⟨⟨rfl, by decide⟩, by decide⟩

/-- `22 10` at 0x200 and `00 EE` at 0x210 (S6), with 15 slots in use. -/
def callReturn : State :=
  { deep 15 0x0400#16 with mem := [(0x200, 0x22#8), (0x201, 0x10#8), (0x211, 0xEE#8)] }

theorem witness_CallThenReturnComesBack :
    callReturn.sp.val < 16 ∧ NextIs callReturn (.op2NNN 0x210#12) ∧
    decodeBytes (callReturn.memRead (0x210#12).toNat) (callReturn.memRead ((0x210#12).toNat + 1)) = .instr .op00EE :=
  And.intro (by decide) (And.intro (by unfold NextIs; decide) (by decide))

/-- `F2 0A` at 0x200 with no key down for two cycles (S7). -/
def waiting : State :=
  ({ given [(2, 0xAA#8)] with inputs := [⟨0, 0, 1⟩, ⟨0, 0xFF, 300⟩], DT := 2#8 } : State).withFetchWord 16 0xF20A

theorem witness_WaitForKeyRepeatsUntilAKeyIsDown :
    NextIs waiting (.opFX0A 2) ∧ 2 ≤ waiting.inputs.length ∧ ∀ inp ∈ waiting.inputs.take 2, inp.keys = 0#16 :=
  ⟨by unfold NextIs; decide, by decide, by decide⟩
theorem witness_StoredCodeIsFetchedAtOnce :
    1 ≤ (1 : RegNum).val ∧
    (given [(0, 0x6A#8), (1, 0x55#8)] 0x1200#16).I.toNat % 4096 = (given [] 0x1200#16).pc.toNat % 4096 := by decide
theorem witness_StepKeepsMemoryCanonical :
    (about State.reset 0x6A7F).Inv ∧ (step (about State.reset 0x6A7F) matches .next _) = true :=
  ⟨by unfold State.Inv; decide, by decide⟩
theorem witness_CanonicalMemoriesThatReadEqualAreEqual :
    Memory.wf [(0, 1#8), (4095, 2#8)] = true ∧
    ∀ a, a < 4096 → Memory.read [(0, 1#8), (4095, 2#8)] a = Memory.read [(0, 1#8), (4095, 2#8)] a :=
  ⟨by decide, fun _ _ => rfl⟩
theorem witness_TicksComeAfterTheInstruction :
    NextIs (about State.reset 0xF107) (.opFX07 1) ∧ NextIs (about State.reset 0xF115) (.opFX15 1) ∧
    NextIs (about State.reset 0xF118) (.opFX18 1) := by unfold NextIs; decide
theorem witness_MemoryReadsWhatWasWritten : (0x1000 : Nat) % 4096 ≠ 0x1FFF % 4096 := by decide
theorem witness_LoadPlacesTheImageOrRejectsIt :
    (List.replicate 3584 0xAB#8).length ≤ 3584 ∧ 3583 < (List.replicate 3584 0xAB#8).length ∧
    (0x1FF < 4096 ∧ 0x1FF < 0x200) ∧ (4095 < 4096 ∧ 0x200 + (List.replicate 3583 0xAB#8).length ≤ 4095) ∧
    3584 < (List.replicate 3585 0xAB#8).length ∧ State.reset.started = false ∧ State.reset.beginCycle.started = true := by
  simp only [List.length_replicate]; decide
theorem witness_LoadPortWritesOneByteOrRefuses :
    State.reset.started = false ∧ 0x200 ≤ (0x200#12).toNat ∧ (0x1FF#12).toNat < 0x200 ∧
    State.reset.beginCycle.started = true := by decide
theorem witness_LoadKeepsMemoryCanonical :
    State.reset.Inv ∧ State.reset.started = false ∧ 0x200 ≤ (0xFFF#12).toNat ∧ (List.replicate 3584 0xAB#8).length ≤ 3584 := by
  unfold State.Inv; simp only [List.length_replicate]; decide
theorem witness_OutputPortsShowPixelsAndTone : 63 < 64 ∧ 31 < 32 ∧ 0 < 64 ∧ 0 < 32 := by decide
theorem witness_ReturnPopsOrReportsUnderflow :
    0 < (deep 16 0#16).sp.val ∧ 0 < (deep 1 0#16).sp.val ∧ State.reset.sp.val = 0 := by decide
theorem witness_CallPushesOrReportsOverflow :
    State.reset.sp.val < 16 ∧ (deep 15 0#16).sp.val < 16 ∧ (deep 16 0#16).sp.val = 16 := by decide

/-- A word of each row that a statement selects by mask and match, with the free bits set. -/
theorem witness_SelectedBy :
    0x1FFF#16 &&& 0xF000#16 = 0x1000#16 ∧ 0xBFFF#16 &&& 0xF000#16 = 0xB000#16 ∧ 0x3FFF#16 &&& 0xF000#16 = 0x3000#16 ∧
    0x4FFF#16 &&& 0xF000#16 = 0x4000#16 ∧ 0x5FFF#16 &&& 0xF000#16 = 0x5000#16 ∧ 0x9FFF#16 &&& 0xF000#16 = 0x9000#16 ∧
    0x6FFF#16 &&& 0xF000#16 = 0x6000#16 ∧ 0x7FFF#16 &&& 0xF000#16 = 0x7000#16 ∧ 0x8FF0#16 &&& 0xF00F#16 = 0x8000#16 ∧
    0xAFFF#16 &&& 0xF000#16 = 0xA000#16 ∧ 0xFF33#16 &&& 0xF0FF#16 = 0xF033#16 ∧ 0xFF55#16 &&& 0xF0FF#16 = 0xF055#16 ∧
    0xFF65#16 &&& 0xF0FF#16 = 0xF065#16 ∧ 0x0FE0#16 &&& 0xF0FF#16 = 0x00E0#16 := by decide
theorem witness_AddSetsCarry : (14 : RegNum) ≠ 15 := by decide
theorem witness_SubtractSetsNotBorrow : (0 : RegNum) ≠ 15 := by decide
theorem witness_ShiftsTakeTheSourceFromVy : (1 : RegNum) ≠ 15 := by decide
theorem witness_StoreRegisters : (15 : RegNum) ≤ 15 ∧ (0 : RegNum) ≤ 0 := by decide
theorem witness_LoadRegisters : (14 : RegNum) ≤ 14 ∧ (14 : RegNum) < 15 := by decide
theorem witness_OnlyBytes : ∀ k, k < 16 → 0x008 % 4096 ≠ (0xFF8 + k) % 4096 := by decide
theorem witness_DrawXorsTheSpriteAndReportsCollision :
    63 < 64 ∧ 31 < 32 ∧ spriteCovers (given [(0, 63#8), (1, 31#8)] 0x300#16 [(0x300, 0x80#8)]) 0 1 1 63 31 = true ∧
    spriteCovers (given [(0, 63#8), (1, 31#8)] 0x300#16 [(0x300, 0x80#8)]) 0 1 1 62 31 = false := by decide
theorem witness_WaitForKeyTakesTheLowestKeyOrRepeats :
    ({ State.reset with key := 0x8000#16 } : State).key ≠ 0#16 ∧ State.reset.key = 0#16 := by decide

end Sys2Proof.Tests
end

section
/-!
PROOFS. The values that the reset state shows through the state's read operations (10_state R40).
-/

namespace Sys2Proof.Machine

/-- The empty memory reads as the reset contents at every address. -/
@[simp] theorem Memory.read_nil (a : Nat) : Memory.read [] a = 0#8 := rfl

/-- In the cleared framebuffer every pixel is dark, inside the grid and beyond it. -/
@[simp] theorem Framebuffer.pixel_replicate_zero (p : Nat) :
    Framebuffer.pixel (Vector.replicate 32 0#64) p = false := by
  unfold Framebuffer.pixel
  split
  next h => rw [Vector.getElem_replicate, BitVec.getLsbD_zero]
  next h => rfl

@[simp] theorem State.memRead_reset (a : Nat) : State.reset.memRead a = 0#8 := Memory.read_nil _

@[simp] theorem State.reg_reset (r : RegNum) : State.reset.reg r = 0#8 := Vector.getElem_replicate r.isLt

theorem State.stack_reset (k : Fin 16) : State.reset.stack[k] = 0#16 := Vector.getElem_replicate k.isLt

@[simp] theorem State.pixel_reset (p : Nat) : State.reset.pixel p = false := Framebuffer.pixel_replicate_zero p

/-- Settles O26: memory, stack, registers and framebuffer by their reads of the reset state; the scalar components as
`State.reset` gives them. -/
theorem resetZeroesAllButPc : Obligations.ResetZeroesAllButPc :=
  ⟨State.memRead_reset, rfl, rfl, State.stack_reset, rfl, rfl, rfl, State.reg_reset, State.pixel_reset, rfl⟩

end Sys2Proof.Machine
end

section
/-!
PROOFS. One byte read and written at any natural number address, and the fetched word by its bytes (20_memory R60, R64,
R77).
-/

namespace Sys2Proof.Machine

/-- A read reduces its address mod 4096. -/
theorem State.memRead_mod (s : State) (a : Nat) : s.memRead (a % 4096) = s.memRead a :=
  congrArg s.mem.read (wrapAddr_wrapAddr a)

/-- A read after a write of one byte: two addresses name one cell when they agree mod 4096. -/
@[simp] theorem State.memRead_memWrite (s : State) (a b : Nat) (v : Byte) :
    (s.memWrite a v).memRead b = if b % 4096 = a % 4096 then v else s.memRead b :=
  Memory.read_write s.mem (wrapAddr a) (wrapAddr b) v

/-- Settles O28: a read after a write splits on whether the two addresses name one cell; a byte made from a natural number
is that number mod 256 already. -/
theorem memoryReadsWhatWasWritten : Obligations.MemoryReadsWhatWasWritten := by
  intro s a b v
  have same : (s.memWrite a (BitVec.ofNat 8 v)).memRead a = BitVec.ofNat 8 (v % 256) := by
    rw [State.memRead_memWrite, if_pos rfl]
    exact BitVec.eq_of_toNat_eq (Nat.mod_mod v 256).symm
  have other (hb : b % 4096 ≠ a % 4096) : (s.memWrite a (BitVec.ofNat 8 v)).memRead b = s.memRead b := by
    rw [State.memRead_memWrite, if_neg hb]
  exact ⟨(s.memRead_mod a).symm, same, other, rfl⟩

/-- The fetched word by its bytes, the more significant one at the lower address. -/
theorem State.fetchWord_eq (s : State) :
    s.fetchWord = joinBytes (s.memRead s.pc.toNat) (s.memRead (s.pc.toNat + 1)) := s.wordAt_eq s.pc.toNat

/-- Settles O11: each byte of the word is taken back out of the two that were joined; at the last cell the address of the
second byte alone goes round to 0. -/
theorem fetchIsBigEndianAndWraps : Obligations.FetchIsBigEndianAndWraps := by
  intro s
  have high : highByte s.fetchWord = s.memRead s.pc.toNat := by
    rw [State.fetchWord_eq, highByte_joinBytes]
  have low : lowByte s.fetchWord = s.memRead (s.pc.toNat + 1) := by
    rw [State.fetchWord_eq, lowByte_joinBytes]
  refine ⟨high, low, fun hlast => ?_⟩
  have hwrap : (s.pc.toNat + 1) % 4096 = 0 := by omega
  rw [State.fetchWord_eq, ← s.memRead_mod s.pc.toNat, ← s.memRead_mod (s.pc.toNat + 1), hlast, hwrap]
  rfl

end Sys2Proof.Machine
end

section
/-!
PROOFS. A word is put together from its fields, and decode answers every word with an instruction or with that word
as an unknown opcode (30_encoding R94, R95).
-/

namespace Sys2Proof

/-- Two fields joined by shift and OR are added when neither overlaps the other or leaves the width. -/
theorem toNat_shiftLeft_or {n : Nat} (a b : BitVec n) (k : Nat) (ha : a.toNat * 2 ^ k < 2 ^ n) (hb : b.toNat < 2 ^ k) :
    (a <<< k ||| b).toNat = a.toNat * 2 ^ k + b.toNat := by
  rw [BitVec.toNat_or, BitVec.toNat_shiftLeft, Nat.shiftLeft_eq, Nat.mod_eq_of_lt ha, ← Nat.shiftLeft_eq,
    Nat.shiftLeft_add_eq_or_of_lt hb]

theorem toNat_ofNat_nibble {n : Nat} (h : 4 ≤ n) (r : Fin 16) : (BitVec.ofNat n r.val).toNat = r.val :=
  Nat.mod_eq_of_lt (r.isLt.trans_le (Nat.pow_le_pow_right (by decide : 0 < 2) h))

/-- `NN` by the nibbles `Y` and `N`. -/
theorem nnField_eq_nibbles (w : Word) :
    nnField w = (BitVec.ofNat 8 (yField w).val <<< 4) ||| (nField w).setWidth 8 := by
  have hy := (yField w).isLt; have hn := (nField w).isLt
  have ey := toNat_ofNat_nibble (n := 8) (by decide) (yField w)
  have en : ((nField w).setWidth 8).toNat = (nField w).toNat := BitVec.toNat_setWidth_of_le (by decide)
  apply BitVec.eq_of_toNat_eq
  rw [toNat_shiftLeft_or _ _ 4 (by omega) (by omega), ey, en, val_yField, toNat_nField, toNat_nnField]
  omega

/-- `NNN` by the nibbles `X`, `Y` and `N`, which fill the 12 bits: the mask takes nothing away. -/
theorem nnnField_eq_nibbles (w : Word) :
    nnnField w = ((BitVec.ofNat 12 (xField w).val <<< 8) ||| (BitVec.ofNat 12 (yField w).val <<< 4) |||
      (nField w).setWidth 12) &&& 0xFFF#12 := by
  have hx := (xField w).isLt; have hy := (yField w).isLt; have hn := (nField w).isLt
  have ex := toNat_ofNat_nibble (n := 12) (by decide) (xField w)
  have ey := toNat_ofNat_nibble (n := 12) (by decide) (yField w)
  have en : ((nField w).setWidth 12).toNat = (nField w).toNat := BitVec.toNat_setWidth_of_le (by decide)
  have low := toNat_shiftLeft_or (BitVec.ofNat 12 (yField w).val) ((nField w).setWidth 12) 4 (by omega) (by omega)
  have mask (v : Addr) : v &&& 0xFFF#12 = v := BitVec.and_allOnes
  apply BitVec.eq_of_toNat_eq
  rw [mask, BitVec.or_assoc, toNat_shiftLeft_or _ _ 8 (by omega) (by omega), low, ex, ey, en, val_xField, val_yField,
    toNat_nField, toNat_nnnField]
  omega

/-- A word by its class and `NNN`. -/
theorem word_eq_class_nnn (w : Word) :
    w = ((classField w).setWidth 16 <<< 12) ||| (nnnField w).setWidth 16 := by
  have hc := (classField w).isLt; have hn := (nnnField w).isLt
  have ec : ((classField w).setWidth 16).toNat = (classField w).toNat := BitVec.toNat_setWidth_of_le (by decide)
  have en : ((nnnField w).setWidth 16).toNat = (nnnField w).toNat := BitVec.toNat_setWidth_of_le (by decide)
  apply BitVec.eq_of_toNat_eq
  rw [toNat_shiftLeft_or _ _ 12 (by omega) (by omega), ec, en, toNat_classField, toNat_nnnField]
  omega

/-! ### The word that decode reports as unknown -/

theorem decodeClass0_eq_unknown {w v : Word} : decodeClass0 w = .unknown v → w = v := by
  unfold decodeClass0; split <;> simp

theorem decodeClass8_eq_unknown {w v : Word} : decodeClass8 w = .unknown v → w = v := by
  unfold decodeClass8; split <;> simp

theorem decodeClassE_eq_unknown {w v : Word} : decodeClassE w = .unknown v → w = v := by
  unfold decodeClassE; split <;> simp

theorem decodeClassF_eq_unknown {w v : Word} : decodeClassF w = .unknown v → w = v := by
  unfold decodeClassF; split <;> simp

/-- Only the classes 0, 8, E and F have unknown words, and each reports the word it was given. -/
theorem decode_eq_unknown {w v : Word} : decode w = .unknown v → w = v := by
  unfold decode
  split
  case h_1 => exact decodeClass0_eq_unknown
  case h_9 => exact decodeClass8_eq_unknown
  case h_15 => exact decodeClassE_eq_unknown
  case h_16 => exact decodeClassF_eq_unknown
  all_goals exact nofun

theorem decode_total (w : Word) : (∃ i, decode w = .instr i) ∨ decode w = .unknown w := by
  cases h : decode w with
  | instr i => exact .inl ⟨i, rfl⟩
  | unknown v => rw [decode_eq_unknown h]; exact .inr rfl

/-- Settles O6: the three identities by the numbers that the fields are, and totality by the two answers decode has. -/
theorem fieldsAreSlicesOfOneWord : Obligations.FieldsAreSlicesOfOneWord := fun w =>
  ⟨nnnField_eq_nibbles w, nnField_eq_nibbles w, word_eq_class_nnn w, decode_total w⟩

end Sys2Proof
end

section
/-!
PROOFS. The jump to an absolute address: the class picks the instruction, and a write to `pc` leaves the rest of the state
(30_encoding R96, 41_flow R141).
-/

namespace Sys2Proof

/-- The mask `F000` keeps all of a word's class. -/
theorem classField_and_F000 (w : Word) : classField (w &&& 0xF000#16) = classField w := by
  have keep : classField (w &&& 0xF000#16) = classField w &&& classField 0xF000#16 := BitVec.extractLsb'_and
  rw [keep]
  exact BitVec.and_allOnes

theorem decode_of_class1 (w : Word) (h : classField w = 0x1#4) : decode w = .instr (.op1NNN (nnnField w)) := by
  simp only [decode, h]

end Sys2Proof

namespace Sys2Proof.Machine

theorem toNat_zext12 (nnn : Addr) : (zext12 nnn).toNat = nnn.toNat := BitVec.toNat_setWidth_of_le (by decide)

/-- A write to `pc` changes nothing else. -/
theorem State.onlyPc_setPc (s : State) (target : Word) : OnlyPc s (s.setPc target) :=
  ⟨rfl, s.reg_congr _ (s.setPc_x target), s.memRead_congr _ (s.setPc_mem target)⟩

theorem exec_op1NNN (nnn : Addr) (s : State) : exec (.op1NNN nnn) s = .next (s.setPc (zext12 nnn)) := rfl

/-- Settles O32: the words of the row are those of class 1; the next state is the one write to `pc`, of the address
widened with zeros. -/
theorem jumpGoesToNNN : Obligations.JumpGoesToNNN := by
  refine ⟨fun w hrow => ?_, fun s nnn => ⟨_, exec_op1NNN nnn s, toNat_zext12 nnn, s.onlyPc_setPc _⟩⟩
  have hclass : classField w = 0x1#4 := by
    rw [← classField_and_F000, hrow]
    rfl
  exact decode_of_class1 w hclass

end Sys2Proof.Machine
end

section
/-!
PROOFS. The skips on an immediate: the class picks the instruction, and `Skip()` leaves `pc` or moves it 2 on (30_encoding
R96, 42_skip R150, R151, R156).
-/

namespace Sys2Proof

/-- A row under the mask `F000` fixes the class of its words. -/
theorem classField_of_and_F000 {w v : Word} (hrow : w &&& 0xF000#16 = v) : classField w = classField v := by
  rw [← classField_and_F000, hrow]

theorem decode_of_class3 (w : Word) (h : classField w = 0x3#4) :
    decode w = .instr (.op3XNN (xField w) (nnField w)) := by
  simp only [decode, h]

theorem decode_of_class4 (w : Word) (h : classField w = 0x4#4) :
    decode w = .instr (.op4XNN (xField w) (nnField w)) := by
  simp only [decode, h]

end Sys2Proof

namespace Sys2Proof.Machine

/-- A skip, taken or not, changes nothing but `pc`. -/
theorem State.onlyPc_skipIf (s : State) (c : Bool) : OnlyPc s (s.skipIf c) := s.onlyPc_setPc _

/-- `Skip()` in numbers: 2 on, mod 65536, when the condition holds. -/
theorem State.toNat_pc_skipIf (s : State) (c : Bool) :
    (s.skipIf c).pc.toNat = if c then (s.pc.toNat + 2) % 65536 else s.pc.toNat := by
  cases c with
  | false => rfl
  | true => exact BitVec.toNat_add s.pc 2#16

/-- The skip on two equal bytes. -/
theorem State.toNat_pc_skipIf_beq (s : State) (a b : Byte) :
    (s.skipIf (a == b)).pc.toNat = if a = b then (s.pc.toNat + 2) % 65536 else s.pc.toNat := by
  simp only [State.toNat_pc_skipIf, beq_iff_eq]

/-- The skip on two different bytes. -/
theorem State.toNat_pc_skipIf_bne (s : State) (a b : Byte) :
    (s.skipIf (a != b)).pc.toNat = if a = b then s.pc.toNat else (s.pc.toNat + 2) % 65536 := by
  simp only [State.toNat_pc_skipIf, bne_iff_ne, ite_not]

theorem exec_op3XNN (x : RegNum) (nn : Byte) (s : State) :
    exec (.op3XNN x nn) s = .next (s.skipIf (s.reg x == nn)) := rfl

theorem exec_op4XNN (x : RegNum) (nn : Byte) (s : State) :
    exec (.op4XNN x nn) s = .next (s.skipIf (s.reg x != nn)) := rfl

/-- Settles O35: the words of the two rows are those of the classes 3 and 4; each instruction is one `Skip()`, on the
register's equality with the immediate and on its opposite. -/
theorem skipOnImmediate : Obligations.SkipOnImmediate := by
  refine ⟨fun w hrow => ?_, fun w hrow => ?_, fun s x nn => ⟨?_, ?_⟩⟩
  · exact decode_of_class3 w (classField_of_and_F000 hrow)
  · exact decode_of_class4 w (classField_of_and_F000 hrow)
  · exact ⟨_, exec_op3XNN x nn s, s.onlyPc_skipIf _, s.toNat_pc_skipIf_beq (s.reg x) nn⟩
  · exact ⟨_, exec_op4XNN x nn s, s.onlyPc_skipIf _, s.toNat_pc_skipIf_bne (s.reg x) nn⟩

end Sys2Proof.Machine
end

section
/-!
PROOFS. The loads of one register that write no flag: of an immediate, of a sum, of another register. The row's mask picks
the instruction, and a write to a general register leaves the rest of the state (30_encoding R96, R98, 43_alu R160, R161,
R162).
-/

namespace Sys2Proof

theorem decode_of_class6 (w : Word) (h : classField w = 0x6#4) :
    decode w = .instr (.op6XNN (xField w) (nnField w)) := by
  simp only [decode, h]

theorem decode_of_class7 (w : Word) (h : classField w = 0x7#4) :
    decode w = .instr (.op7XNN (xField w) (nnField w)) := by
  simp only [decode, h]

/-- The outer level of the decoder hands the words of class 8 to the inner one. -/
theorem decode_of_class8 (w : Word) (h : classField w = 0x8#4) : decode w = decodeClass8 w := by
  simp only [decode, h]

theorem decodeClass8_of_n0 (w : Word) (h : nField w = 0x0#4) :
    decodeClass8 w = .instr (.op8XY0 (xField w) (yField w)) := by
  simp only [decodeClass8, h]

/-- A row under the mask `F00F` fixes the class and `N` of its words: the mask keeps all of both. -/
theorem fields_of_and_F00F {w v : Word} (hrow : w &&& 0xF00F#16 = v) :
    classField w = classField v ∧ nField w = nField v := by
  have hclass : classField (w &&& 0xF00F#16) = classField w &&& classField 0xF00F#16 := BitVec.extractLsb'_and
  have hn : nField (w &&& 0xF00F#16) = nField w &&& nField 0xF00F#16 := BitVec.extractLsb'_and
  rw [← hrow, hclass, hn]
  exact ⟨BitVec.and_allOnes.symm, BitVec.and_allOnes.symm⟩

end Sys2Proof

namespace Sys2Proof.Machine

/-- The register written holds the value. -/
theorem State.reg_setReg_self (s : State) (r : RegNum) (v : Byte) : (s.setReg r v).reg r = v := by
  rw [State.reg_setReg, if_pos rfl]

/-- A write to a general register changes nothing else. -/
theorem State.onlyRegs_setReg (s : State) (r : RegNum) (v : Byte) : OnlyRegs s (s.setReg r v) [r] := by
  refine ⟨rfl, fun q hq => ?_, s.memRead_congr _ (s.setReg_mem r v)⟩
  rw [State.reg_setReg, if_neg (List.ne_of_not_mem_cons hq)]

theorem exec_op6XNN (x : RegNum) (nn : Byte) (s : State) : exec (.op6XNN x nn) s = .next (s.setReg x nn) := rfl

theorem exec_op7XNN (x : RegNum) (nn : Byte) (s : State) :
    exec (.op7XNN x nn) s = .next (s.setReg x (s.reg x + nn)) := rfl

theorem exec_op8XY0 (x y : RegNum) (s : State) : exec (.op8XY0 x y) s = .next (s.setReg x (s.reg y)) := rfl

/-- Settles O38: the words of the row are those of class 6; the next state is the one write of the immediate. -/
theorem loadImmediate : Obligations.LoadImmediate := by
  refine ⟨fun w hrow => ?_, fun s x nn => ?_⟩
  · exact decode_of_class6 w (classField_of_and_F000 hrow)
  · exact ⟨_, exec_op6XNN x nn s, s.reg_setReg_self x nn, s.onlyRegs_setReg x nn⟩

/-- Settles O39: the words of the row are those of class 7; the next state is the one write of the sum, which the
register's eight bits take mod 256. -/
theorem addImmediateWrapsWithoutFlag : Obligations.AddImmediateWrapsWithoutFlag := by
  refine ⟨fun w hrow => ?_, fun s x nn => ⟨_, exec_op7XNN x nn s, ?_, s.onlyRegs_setReg x _⟩⟩
  · exact decode_of_class7 w (classField_of_and_F000 hrow)
  · rw [State.reg_setReg_self]
    exact BitVec.toNat_add (s.reg x) nn

/-- Settles O40: the words of the row are those of class 8 with `N` = 0; the next state is the one write of the source
register's value. -/
theorem copyRegister : Obligations.CopyRegister := by
  refine ⟨fun w hrow => ?_, fun s x y => ?_⟩
  · obtain ⟨hclass, hn⟩ := fields_of_and_F00F hrow
    rw [decode_of_class8 w hclass, decodeClass8_of_n0 w hn]
  · exact ⟨_, exec_op8XY0 x y s, s.reg_setReg_self x (s.reg y), s.onlyRegs_setReg x (s.reg y)⟩

end Sys2Proof.Machine
end

section
/-!
PROOFS. The load of the index register: the class picks the instruction, and a write to `I` leaves the rest of the state
(30_encoding R96, 44_index_memory R180).
-/

namespace Sys2Proof

theorem decode_of_classA (w : Word) (h : classField w = 0xA#4) : decode w = .instr (.opANNN (nnnField w)) := by
  simp only [decode, h]

end Sys2Proof

namespace Sys2Proof.Machine

/-- A write to `I` changes nothing else. -/
theorem State.onlyIndex_setIndex (s : State) (v : Word) : OnlyIndex s (s.setIndex v) :=
  ⟨rfl, s.reg_congr _ (s.setIndex_x v), s.memRead_congr _ (s.setIndex_mem v)⟩

theorem exec_opANNN (nnn : Addr) (s : State) : exec (.opANNN nnn) s = .next (s.setIndex (zext12 nnn)) := rfl

/-- Settles O46: the words of the row are those of class A; the next state is the one write to `I`, of the address
widened with zeros. -/
theorem loadIndex : Obligations.LoadIndex := by
  refine ⟨fun w hrow => ?_, fun s nnn => ?_⟩
  · exact decode_of_classA w (classField_of_and_F000 hrow)
  · exact ⟨_, exec_opANNN nnn s, toNat_zext12 nnn, s.onlyIndex_setIndex (zext12 nnn)⟩

end Sys2Proof.Machine
end

section
/-!
PROOFS. A word put together from its fields again, and a word under the masks of the opcode map: what the mask keeps are
fields (30_encoding R91, R96).
-/

namespace Sys2Proof

/-! ### A word from its fields -/

theorem encodeXNN_fields (w : Word) : encodeXNN (classField w) (xField w) (nnField w) = w := by
  apply BitVec.eq_of_toNat_eq
  rw [toNat_encodeXNN, toNat_classField, val_xField, toNat_nnField]
  omega

theorem encodeXYN_fields (w : Word) : encodeXYN (classField w) (xField w) (yField w) (nField w) = w := by
  apply BitVec.eq_of_toNat_eq
  rw [toNat_encodeXYN, toNat_classField, val_xField, val_yField, toNat_nField]
  omega

theorem encodeNNN_fields (w : Word) : encodeNNN (classField w) (nnnField w) = w := by
  apply BitVec.eq_of_toNat_eq
  rw [toNat_encodeNNN, toNat_classField, toNat_nnnField]
  omega

/-! ### A word under a mask -/

theorem and_F000 (w : Word) : w &&& 0xF000#16 = encodeNNN (classField w) 0#12 := by
  conv_lhs => rw [← encodeNNN_fields w]
  exact encodeNNN_and _ _

theorem and_F0FF (w : Word) : w &&& 0xF0FF#16 = encodeXNN (classField w) 0 (nnField w) := by
  conv_lhs => rw [← encodeXNN_fields w]
  exact (encodeXNN_and _ _ _ 0xFF#8).trans (by rw [show nnField w &&& 0xFF#8 = nnField w from BitVec.and_allOnes])

theorem and_F00F (w : Word) : w &&& 0xF00F#16 = encodeXYN (classField w) 0 0 (nField w) := by
  conv_lhs => rw [← encodeXYN_fields w]
  exact (encodeXYN_and _ _ _ _ 0xF#4).trans (by rw [show nField w &&& 0xF#4 = nField w from BitVec.and_allOnes])

/-- A row under the mask `F0FF` fixes the class and `NN` of its words. -/
theorem fields_of_and_F0FF {w v : Word} (hrow : w &&& 0xF0FF#16 = v) :
    classField w = classField v ∧ nnField w = nnField v := by
  rw [← hrow, and_F0FF, classField_encodeXNN, nnField_encodeXNN]
  exact ⟨rfl, rfl⟩

end Sys2Proof
end

section
/-!
PROOFS. The rows of the opcode map and the decoder: a word of an instruction's row decodes to the instruction of that row
with the word's own operands, and nothing else decodes to it (30_encoding section 3).
-/

namespace Sys2Proof

/-- The instruction of the same row as `i`, with the operands read from the word `w`. -/
def Instr.withFieldsOf (w : Word) : Instr → Instr
  | .op00E0 => .op00E0
  | .op00EE => .op00EE
  | .op1NNN _ => .op1NNN (nnnField w)
  | .op2NNN _ => .op2NNN (nnnField w)
  | .op3XNN _ _ => .op3XNN (xField w) (nnField w)
  | .op4XNN _ _ => .op4XNN (xField w) (nnField w)
  | .op5XY0 _ _ => .op5XY0 (xField w) (yField w)
  | .op6XNN _ _ => .op6XNN (xField w) (nnField w)
  | .op7XNN _ _ => .op7XNN (xField w) (nnField w)
  | .op8XY0 _ _ => .op8XY0 (xField w) (yField w)
  | .op8XY1 _ _ => .op8XY1 (xField w) (yField w)
  | .op8XY2 _ _ => .op8XY2 (xField w) (yField w)
  | .op8XY3 _ _ => .op8XY3 (xField w) (yField w)
  | .op8XY4 _ _ => .op8XY4 (xField w) (yField w)
  | .op8XY5 _ _ => .op8XY5 (xField w) (yField w)
  | .op8XY6 _ _ => .op8XY6 (xField w) (yField w)
  | .op8XY7 _ _ => .op8XY7 (xField w) (yField w)
  | .op8XYE _ _ => .op8XYE (xField w) (yField w)
  | .op9XY0 _ _ => .op9XY0 (xField w) (yField w)
  | .opANNN _ => .opANNN (nnnField w)
  | .opBNNN _ => .opBNNN (nnnField w)
  | .opCXNN _ _ => .opCXNN (xField w) (nnField w)
  | .opDXYN _ _ _ => .opDXYN (xField w) (yField w) (nField w).toFin
  | .opEX9E _ => .opEX9E (xField w)
  | .opEXA1 _ => .opEXA1 (xField w)
  | .opFX07 _ => .opFX07 (xField w)
  | .opFX0A _ => .opFX0A (xField w)
  | .opFX15 _ => .opFX15 (xField w)
  | .opFX18 _ => .opFX18 (xField w)
  | .opFX1E _ => .opFX1E (xField w)
  | .opFX33 _ => .opFX33 (xField w)
  | .opFX55 _ => .opFX55 (xField w)
  | .opFX65 _ => .opFX65 (xField w)

theorem rowOf_withFieldsOf (w : Word) (i : Instr) : rowOf (i.withFieldsOf w) = rowOf i := by
  cases i <;> rfl

theorem decode_of_class0 (w : Word) (h : classField w = 0x0#4) : decode w = decodeClass0 w := by
  simp only [decode, h]

theorem decode_of_classE (w : Word) (h : classField w = 0xE#4) : decode w = decodeClassE w := by
  simp only [decode, h]

theorem decode_of_classF (w : Word) (h : classField w = 0xF#4) : decode w = decodeClassF w := by
  rw [decode, h]
  rfl

/-- Every word of an instruction's row decodes to the instruction of that row with the word's operands. -/
theorem decode_of_row (i : Instr) {w : Word} (hrow : w &&& (rowOf i).mask = (rowOf i).value) :
    decode w = .instr (i.withFieldsOf w) := by
  cases i <;> simp only [rowOf] at hrow
  case op00E0 | op00EE =>
    obtain ⟨hclass, hnn⟩ := fields_of_and_F0FF hrow
    rw [decode_of_class0 w hclass, decodeClass0, hnn]
    rfl
  case op8XY0 | op8XY1 | op8XY2 | op8XY3 | op8XY4 | op8XY5 | op8XY6 | op8XY7 | op8XYE =>
    obtain ⟨hclass, hn⟩ := fields_of_and_F00F hrow
    rw [decode_of_class8 w hclass, decodeClass8, hn]
    rfl
  case opEX9E | opEXA1 =>
    obtain ⟨hclass, hnn⟩ := fields_of_and_F0FF hrow
    rw [decode_of_classE w hclass, decodeClassE, hnn]
    rfl
  case opFX07 | opFX0A | opFX15 | opFX18 | opFX1E | opFX33 | opFX55 | opFX65 =>
    obtain ⟨hclass, hnn⟩ := fields_of_and_F0FF hrow
    rw [decode_of_classF w hclass, decodeClassF, hnn]
    rfl
  all_goals
    rw [decode, classField_of_and_F000 hrow]
    rfl

end Sys2Proof
end

section
/-!
PROOFS. The converse: a word that decodes to an instruction is a word of that instruction's row (30_encoding section 3).
-/

namespace Sys2Proof

/-! ### The word of given fields under a mask -/

theorem and_F000_of_class {w : Word} {c : BitVec 4} (hclass : classField w = c) :
    w &&& 0xF000#16 = encodeNNN c 0#12 := by
  rw [and_F000, hclass]

theorem and_F0FF_of_fields {w : Word} {c : BitVec 4} {nn : Byte} (hclass : classField w = c) (hnn : nnField w = nn) :
    w &&& 0xF0FF#16 = encodeXNN c 0 nn := by
  rw [and_F0FF, hclass, hnn]

theorem and_F00F_of_fields {w : Word} {c n : BitVec 4} (hclass : classField w = c) (hn : nField w = n) :
    w &&& 0xF00F#16 = encodeXYN c 0 0 n := by
  rw [and_F00F, hclass, hn]

/-! ### What each arm of the decoder answers lies in its own row -/

theorem row_of_decodeClass0 {w : Word} {i : Instr} (hclass : classField w = 0x0#4) (h : decodeClass0 w = .instr i) :
    w &&& (rowOf i).mask = (rowOf i).value := by
  unfold decodeClass0 at h
  split at h <;> cases h <;> exact and_F0FF_of_fields hclass ‹_›

theorem row_of_decodeClass8 {w : Word} {i : Instr} (hclass : classField w = 0x8#4) (h : decodeClass8 w = .instr i) :
    w &&& (rowOf i).mask = (rowOf i).value := by
  unfold decodeClass8 at h
  split at h <;> cases h <;> exact and_F00F_of_fields hclass ‹_›

theorem row_of_decodeClassE {w : Word} {i : Instr} (hclass : classField w = 0xE#4) (h : decodeClassE w = .instr i) :
    w &&& (rowOf i).mask = (rowOf i).value := by
  unfold decodeClassE at h
  split at h <;> cases h <;> exact and_F0FF_of_fields hclass ‹_›

theorem row_of_decodeClassF {w : Word} {i : Instr} (hclass : classField w = 0xF#4) (h : decodeClassF w = .instr i) :
    w &&& (rowOf i).mask = (rowOf i).value := by
  unfold decodeClassF at h
  split at h <;> cases h <;> exact and_F0FF_of_fields hclass ‹_›

/-- The default arm of the decoder is class F: the other fifteen classes have arms of their own. -/
theorem eq_classF_of_ne (c : BitVec 4) : c ≠ 0x0#4 → c ≠ 0x1#4 → c ≠ 0x2#4 → c ≠ 0x3#4 → c ≠ 0x4#4 → c ≠ 0x5#4 →
    c ≠ 0x6#4 → c ≠ 0x7#4 → c ≠ 0x8#4 → c ≠ 0x9#4 → c ≠ 0xA#4 → c ≠ 0xB#4 → c ≠ 0xC#4 → c ≠ 0xD#4 → c ≠ 0xE#4 →
    c = 0xF#4 := by
  bv_omega

/-- A word that decodes to an instruction is a word of the instruction's row. -/
theorem row_of_decode {w : Word} {i : Instr} (h : decode w = .instr i) : w &&& (rowOf i).mask = (rowOf i).value := by
  unfold decode at h
  split at h
  case h_1 hclass => exact row_of_decodeClass0 hclass h
  case h_9 hclass => exact row_of_decodeClass8 hclass h
  case h_15 hclass => exact row_of_decodeClassE hclass h
  case h_16 => exact row_of_decodeClassF (by apply eq_classF_of_ne <;> assumption) h
  all_goals
    cases h
    exact and_F000_of_class ‹_›

/-- Settles O3: what decodes to `i` is in the row of `i`, and a word of that row decodes to an instruction that differs
from `i` in its operands only. -/
theorem decodeSelectsTheRowTheWordMatches : Obligations.DecodeSelectsTheRowTheWordMatches := fun w =>
  ⟨fun _ h => row_of_decode h, fun i hrow => ⟨i.withFieldsOf w, decode_of_row i hrow, rowOf_withFieldsOf w i⟩⟩

end Sys2Proof
end

section
/-!
PROOFS. The encoder against the decoder: the round trip of an instruction, and the words that the encoder gives back
(30_encoding sections 1 and 3, R97, R101).
-/

namespace Sys2Proof

/-! ### The round trip -/

/-- An instruction's operands are those its word spells. -/
theorem withFieldsOf_encode (i : Instr) : i.withFieldsOf (encode i) = i := by
  cases i <;> simp [Instr.withFieldsOf, encode, nibble]

open Laws.EncodesRow in
/-- The law of every instruction's canonical word, from its one lemma per constructor. -/
theorem encodesRow (i : Instr) : Laws.EncodesRow.Statement i := by
  cases i
  exacts [op00E0, op00EE, op1NNN _, op2NNN _, op3XNN _ _, op4XNN _ _, op5XY0 _ _, op6XNN _ _, op7XNN _ _, op8XY0 _ _,
    op8XY1 _ _, op8XY2 _ _, op8XY3 _ _, op8XY4 _ _, op8XY5 _ _, op8XY6 _ _, op8XY7 _ _, op8XYE _ _, op9XY0 _ _,
    opANNN _, opBNNN _, opCXNN _ _, opDXYN _ _ _, opEX9E _, opEXA1 _, opFX07 _, opFX0A _, opFX15 _, opFX18 _, opFX1E _,
    opFX33 _, opFX55 _, opFX65 _]

/-- Settles O1: the canonical word is a word of the instruction's row, and spells the instruction's operands. -/
theorem decodeInvertsEncode : Obligations.DecodeInvertsEncode := by
  intro i
  obtain ⟨hrow, -⟩ := encodesRow i
  rw [decode_of_row i hrow, withFieldsOf_encode]

/-! ### Canonical words -/

theorem encodeNNN_of_class {w : Word} {c : BitVec 4} (hclass : classField w = c) : encodeNNN c (nnnField w) = w := by
  rw [← hclass, encodeNNN_fields]

theorem encodeXNN_of_fields {w : Word} {c : BitVec 4} {x : RegNum} {nn : Byte} (hclass : classField w = c)
    (hx : xField w = x) (hnn : nnField w = nn) : encodeXNN c x nn = w := by
  rw [← hclass, ← hx, ← hnn, encodeXNN_fields]

theorem encodeXYN_of_fields {w : Word} {c n : BitVec 4} (hclass : classField w = c) (hn : nField w = n) :
    encodeXYN c (xField w) (yField w) n = w := by
  rw [← hclass, ← hn, encodeXYN_fields]

/-- The bits that a canonical word spells as 0, by its fields. -/
theorem canonicalWord_iff (w : Word) : canonicalWord w = true ↔
    (classField w = 0x0#4 → xField w = 0) ∧ (classField w = 0x5#4 → nField w = 0x0#4) ∧
      (classField w = 0x9#4 → nField w = 0x0#4) := by
  have hx : xField w = 0 ↔ w.extractLsb' 8 4 = 0x0#4 := BitVec.toFin_inj
  simp only [canonicalWord, canonicalClass0, canonicalClass5, canonicalClass9, Bool.and_eq_true, Bool.or_eq_true,
    bne_iff_ne, beq_iff_eq, ne_eq, ← imp_iff_not_or, hx, classField, nField, and_assoc]

/-- A canonical word of an instruction's row is the encoder's word for its operands. -/
theorem encode_withFieldsOf (i : Instr) {w : Word} (hrow : w &&& (rowOf i).mask = (rowOf i).value)
    (hw : canonicalWord w = true) : encode (i.withFieldsOf w) = w := by
  obtain ⟨hclass0, hclass5, hclass9⟩ := (canonicalWord_iff w).1 hw
  cases i <;> simp only [rowOf] at hrow
  case op00E0 | op00EE =>
    obtain ⟨hclass, hnn⟩ := fields_of_and_F0FF hrow
    exact encodeXNN_of_fields hclass (hclass0 hclass) hnn
  case opEX9E | opEXA1 | opFX07 | opFX0A | opFX15 | opFX18 | opFX1E | opFX33 | opFX55 | opFX65 =>
    obtain ⟨hclass, hnn⟩ := fields_of_and_F0FF hrow
    exact encodeXNN_of_fields hclass rfl hnn
  case op8XY0 | op8XY1 | op8XY2 | op8XY3 | op8XY4 | op8XY5 | op8XY6 | op8XY7 | op8XYE =>
    obtain ⟨hclass, hn⟩ := fields_of_and_F00F hrow
    exact encodeXYN_of_fields hclass hn
  case op5XY0 =>
    have hclass := classField_of_and_F000 hrow
    exact encodeXYN_of_fields hclass (hclass5 hclass)
  case op9XY0 =>
    have hclass := classField_of_and_F000 hrow
    exact encodeXYN_of_fields hclass (hclass9 hclass)
  case opDXYN => exact encodeXYN_of_fields (classField_of_and_F000 hrow) rfl
  case op3XNN | op4XNN | op6XNN | op7XNN | opCXNN => exact encodeXNN_of_fields (classField_of_and_F000 hrow) rfl rfl
  case op1NNN | op2NNN | opANNN | opBNNN => exact encodeNNN_of_class (classField_of_and_F000 hrow)

/-- Settles O5: the encoder writes canonical words; a canonical word that decodes to `i` is spelled from the operands of
`i`. -/
theorem canonicalWordsAreTheEncodersWords : Obligations.CanonicalWordsAreTheEncodersWords := by
  intro w i h
  have hrow := row_of_decode h
  have hi : i = i.withFieldsOf w := Decoded.instr.inj (h.symm.trans (decode_of_row i hrow))
  constructor
  · rintro rfl
    exact (encodesRow i).2
  · intro hw
    rw [hi, encode_withFieldsOf i hrow hw]

end Sys2Proof
end

section
/-!
PROOFS. The words as the family files print them: a format's fields lie side by side, so that joining them is an OR of the
fields, each shifted to its place (30_encoding R92).
-/

open Sys2Proof.Certificates

namespace Sys2Proof

/-! ### The OR of two words of one format, field by field -/

@[simp] theorem nibble_zero : nibble 0 = 0#4 := rfl

theorem encodeXNN_or (c d : BitVec 4) (x y : RegNum) (nn mm : Byte) : encodeXNN c x nn ||| encodeXNN d y mm =
    ((c ||| d) ++ (nibble x ||| nibble y) ++ (nn ||| mm) : BitVec (4 + 4 + 8)) := by
  rw [← BitVec.or_append, ← BitVec.or_append]
  rfl

theorem encodeXYN_or (c d : BitVec 4) (x y z u : RegNum) (n m : BitVec 4) : encodeXYN c x y n ||| encodeXYN d z u m =
    ((c ||| d) ++ (nibble x ||| nibble z) ++ (nibble y ||| nibble u) ++ (n ||| m) : BitVec (4 + 4 + 4 + 4)) := by
  rw [← BitVec.or_append, ← BitVec.or_append, ← BitVec.or_append]
  rfl

theorem encodeNNN_or (c d : BitVec 4) (a b : Addr) :
    encodeNNN c a ||| encodeNNN d b = ((c ||| d) ++ (a ||| b) : BitVec (4 + 12)) := by
  rw [← BitVec.or_append]
  rfl

/-! ### A shifted operand as a word with one field -/

theorem atX_eq_encodeXNN (x : Fin 16) : atX x = encodeXNN 0x0#4 x 0x00#8 := by
  decide +revert

theorem atX_eq_encodeXYN (x : Fin 16) : atX x = encodeXYN 0x0#4 x 0 0x0#4 := by
  decide +revert

theorem atY_eq_encodeXYN (y : Fin 16) : atY y = encodeXYN 0x0#4 0 y 0x0#4 := by
  decide +revert

theorem atN_eq_encodeXYN (n : Fin 16) : atN n = encodeXYN 0x0#4 0 0 (nibble n) := by
  decide +revert

theorem atNN_eq_encodeXNN (nn : Byte) : atNN nn = encodeXNN 0x0#4 0 nn := by
  apply BitVec.eq_of_toNat_eq
  rw [atNN, toNat_encodeXNN, BitVec.toNat_setWidth_of_le (by decide)]
  simp

theorem atNNN_eq_encodeNNN (nnn : Addr) : atNNN nnn = encodeNNN 0x0#4 nnn := by
  apply BitVec.eq_of_toNat_eq
  rw [atNNN, toNat_encodeNNN, BitVec.toNat_setWidth_of_le (by decide)]
  simp

/-! ### A format as an OR; `v` is the word with every operand 0 -/

/-- Format NNN as an OR. -/
theorem encodeNNN_eq_or {c : BitVec 4} {v : Word} (hv : encodeNNN c 0#12 = v) (nnn : Addr) :
    encodeNNN c nnn = v ||| atNNN nnn := by
  rw [← hv, atNNN_eq_encodeNNN, encodeNNN_or, BitVec.or_zero, BitVec.zero_or]
  rfl

/-- Format XNN as an OR, the low byte fixed by the instruction. -/
theorem encodeXNN_eq_or_atX {c : BitVec 4} {nn : Byte} {v : Word} (hv : encodeXNN c 0 nn = v) (x : RegNum) :
    encodeXNN c x nn = v ||| atX x := by
  rw [← hv, atX_eq_encodeXNN, encodeXNN_or, nibble_zero, BitVec.or_zero, BitVec.or_zero, BitVec.zero_or]
  rfl

/-- Format XNN as an OR, the low byte an operand. -/
theorem encodeXNN_eq_or {c : BitVec 4} {v : Word} (hv : encodeXNN c 0 0x00#8 = v) (x : RegNum) (nn : Byte) :
    encodeXNN c x nn = v ||| atX x ||| atNN nn := by
  rw [← encodeXNN_eq_or_atX hv, atNN_eq_encodeXNN, encodeXNN_or, nibble_zero, BitVec.or_zero, BitVec.or_zero,
    BitVec.zero_or]
  rfl

/-- Format XYN as an OR, the low nibble fixed by the instruction. -/
theorem encodeXYN_eq_or_atY {c n : BitVec 4} {v : Word} (hv : encodeXYN c 0 0 n = v) (x y : RegNum) :
    encodeXYN c x y n = v ||| atX x ||| atY y := by
  have hx : v ||| atX x = encodeXYN c x 0 n := by
    rw [← hv, atX_eq_encodeXYN, encodeXYN_or, nibble_zero, BitVec.or_zero, BitVec.or_zero, BitVec.or_zero, BitVec.zero_or]
    rfl
  rw [hx, atY_eq_encodeXYN, encodeXYN_or, nibble_zero, BitVec.or_zero, BitVec.or_zero, BitVec.or_zero, BitVec.zero_or]
  rfl

/-- Format XYN as an OR, the low nibble an operand. -/
theorem encodeXYN_eq_or_atN {c : BitVec 4} {v : Word} (hv : encodeXYN c 0 0 0x0#4 = v) (x y : RegNum) (n : Fin 16) :
    encodeXYN c x y (nibble n) = v ||| atX x ||| atY y ||| atN n := by
  rw [← encodeXYN_eq_or_atY hv, atN_eq_encodeXYN, encodeXYN_or, nibble_zero, BitVec.or_zero, BitVec.or_zero,
    BitVec.or_zero, BitVec.zero_or]
  rfl

/-- Settles O2: each encoding is one of the formats, with the constant of the family file as its word of zero operands. -/
theorem encodingsAreTheOrsTheFamilyFilesPrint : Obligations.EncodingsAreTheOrsTheFamilyFilesPrint :=
  ⟨rfl, rfl, encodeNNN_eq_or rfl, encodeNNN_eq_or rfl, encodeNNN_eq_or rfl, encodeNNN_eq_or rfl, encodeXNN_eq_or rfl,
    encodeXNN_eq_or rfl, encodeXNN_eq_or rfl, encodeXNN_eq_or rfl, encodeXNN_eq_or rfl, encodeXYN_eq_or_atY rfl,
    encodeXYN_eq_or_atY rfl, encodeXYN_eq_or_atY rfl, encodeXYN_eq_or_atY rfl, encodeXYN_eq_or_atY rfl,
    encodeXYN_eq_or_atY rfl, encodeXYN_eq_or_atY rfl, encodeXYN_eq_or_atY rfl, encodeXYN_eq_or_atY rfl,
    encodeXYN_eq_or_atY rfl, encodeXYN_eq_or_atY rfl, encodeXYN_eq_or_atN rfl, encodeXNN_eq_or_atX rfl,
    encodeXNN_eq_or_atX rfl, encodeXNN_eq_or_atX rfl, encodeXNN_eq_or_atX rfl, encodeXNN_eq_or_atX rfl,
    encodeXNN_eq_or_atX rfl, encodeXNN_eq_or_atX rfl, encodeXNN_eq_or_atX rfl, encodeXNN_eq_or_atX rfl,
    encodeXNN_eq_or_atX rfl⟩

end Sys2Proof
end

section
/-!
PROOFS. The words that decode to no instruction, and sample words of every family (30_encoding sections 3 and 4).
-/

namespace Sys2Proof

/-- Settles O7: the decoder runs on each word. -/
theorem sampleWordsOfEveryFamilyDecode : Obligations.SampleWordsOfEveryFamilyDecode :=
  ⟨rfl, rfl, rfl, rfl, rfl, rfl, rfl, rfl, rfl, rfl, rfl⟩

/-! ### The unknown words of each two-level class -/

theorem decodeClass0_unknown_iff (w : Word) : decodeClass0 w = .unknown w ↔ nnField w ∉ [0xE0#8, 0xEE#8] := by
  unfold decodeClass0
  split <;> simp_all

theorem decodeClassE_unknown_iff (w : Word) : decodeClassE w = .unknown w ↔ nnField w ∉ [0x9E#8, 0xA1#8] := by
  unfold decodeClassE
  split <;> simp_all

theorem decodeClassF_unknown_iff (w : Word) : decodeClassF w = .unknown w ↔
    nnField w ∉ [0x07#8, 0x0A#8, 0x15#8, 0x18#8, 0x1E#8, 0x33#8, 0x55#8, 0x65#8] := by
  unfold decodeClassF
  split <;> simp_all

/-- The values of `N` without an instruction in class 8 are those other than the nine that have one. -/
theorem mem_unusedN_iff (n : BitVec 4) : n ∈ [0x8#4, 0x9#4, 0xA#4, 0xB#4, 0xC#4, 0xD#4, 0xF#4] ↔
    n ∉ [0x0#4, 0x1#4, 0x2#4, 0x3#4, 0x4#4, 0x5#4, 0x6#4, 0x7#4, 0xE#4] := by
  decide +revert

theorem decodeClass8_unknown_iff (w : Word) : decodeClass8 w = .unknown w ↔
    nField w ∈ [0x8#4, 0x9#4, 0xA#4, 0xB#4, 0xC#4, 0xD#4, 0xF#4] := by
  rw [mem_unusedN_iff]
  unfold decodeClass8
  split <;> simp_all

/-- Settles O4: along the decoder's classes. In a class with one instruction nothing is unknown and the class matches no
line of the list; each of the other four has its own line. -/
theorem unknownOpcodesAreExactlyTheListedWords : Obligations.UnknownOpcodesAreExactlyTheListedWords := by
  refine fun w => ⟨?_, fun v h => (decode_eq_unknown h).symm⟩
  unfold decode
  split
  case h_1 hclass => simp [hclass, decodeClass0_unknown_iff]
  case h_9 hclass => simp [hclass, decodeClass8_unknown_iff]
  case h_15 hclass => simp [hclass, decodeClassE_unknown_iff]
  case h_16 =>
    have hclass : classField w = 0xF#4 := by apply eq_classF_of_ne <;> assumption
    simp [hclass, decodeClassF_unknown_iff]
  all_goals
    next hclass => simp [hclass]

end Sys2Proof
end

section
/-!
PROOFS. The canonical form of memory: every step and every load keeps it, and a canonical memory is determined by what it
reads as (10_state section 7, 20_memory section 9; the model's form, log 16).
-/

namespace Sys2Proof.Machine

/-! ### The invariant -/

/-- The invariant speaks of memory alone. -/
theorem State.Inv.of_mem_eq {s t : State} (hs : s.Inv) (h : t.mem = s.mem) : t.Inv := by
  rw [State.Inv, h]
  exact hs

theorem State.Inv.memWriteBytes {s : State} (hs : s.Inv) (a : Nat) (bs : List Byte) : (s.memWriteBytes a bs).Inv :=
  s.mem.wf_writeBytes a bs hs

theorem State.Inv.memWrite {s : State} (hs : s.Inv) (a : Nat) (v : Byte) : (s.memWrite a v).Inv :=
  s.mem.wf_write (wrapAddr a) v hs (wrapAddr_lt a)

theorem State.Inv.exec {i : Instr} {s t : State} (hs : s.Inv) (h : exec i s = .next t) : t.Inv := by
  rcases exec_mem_cases i s t h with hmem | ⟨a, bs, hmem⟩
  · exact hs.of_mem_eq hmem
  · exact (hs.memWriteBytes a bs).of_mem_eq hmem

/-- Whatever was decoded, executing it keeps the invariant: an unknown opcode leaves memory. -/
theorem State.Inv.execDecoded {d : Decoded} {s t : State} (hs : s.Inv) (h : execDecoded d s = .next t) : t.Inv := by
  cases d with
  | instr i => exact State.Inv.exec hs h
  | unknown w =>
    obtain rfl : s.report .unknownOpcode = t := by simpa [Machine.execDecoded, execUnknown] using h
    exact hs.of_mem_eq rfl

/-- Settles O20: neither the begin nor the end of a cycle touches memory, and what is executed between keeps the form. -/
theorem stepKeepsMemoryCanonical : Obligations.StepKeepsMemoryCanonical := by
  intro s u hs h
  obtain ⟨t, ht, rfl⟩ := step_cases s u h
  have hbegin : s.beginCycle.Inv := hs.of_mem_eq s.beginCycle_mem
  exact (hbegin.execDecoded ht).of_mem_eq (t.endCycle_mem _)

/-- Settles O21: the empty memory is canonical. -/
theorem resetMemoryIsCanonical : Obligations.ResetMemoryIsCanonical := rfl

/-- Settles O58: a port write and a program load are writes of bytes; reset gives the empty memory, and boot loads into
it. -/
theorem loadKeepsMemoryCanonical : Obligations.LoadKeepsMemoryCanonical := by
  have load (image : List Byte) (s : State) (hs : s.Inv) (hstart : s.started = false) (hl : image.length ≤ 3584) :
      ∃ t, loadProgram image s = .next t ∧ t.Inv :=
    ⟨_, loadProgram_next image s hstart hl, hs.memWriteBytes Config.progOrigin image⟩
  refine ⟨fun addr data s hs hstart ha => ?_, load, fun s => ?_, fun image hl => ?_⟩
  · exact ⟨_, loadByte_next addr data s hstart ha, hs.memWrite addr.toNat data⟩
  · exact State.Inv.of_mem_eq resetMemoryIsCanonical rfl
  · exact load image State.reset resetMemoryIsCanonical rfl hl

/-! ### Canonical memories are determined by their reads -/

theorem Memory.read_head (c : Host.Cell) (m : Memory) : Memory.read (c :: m) c.1 = c.2 := if_pos rfl

/-- An address that no cell names reads as unlisted. -/
theorem Memory.read_eq_unlisted {m : Memory} {a : Nat} (h : ∀ c ∈ m, c.1 ≠ a) : m.read a = Memory.unlisted := by
  induction m with
  | nil => rfl
  | cons c m ih =>
    rw [Memory.read, if_neg (h c List.mem_cons_self)]
    exact ih fun d hd => h d (List.mem_cons_of_mem c hd)

/-- A canonical memory that reads as listed at `a` begins at or before `a`. -/
theorem Memory.head_le_of_read_ne {d : Host.Cell} {k : Memory} {a : Nat} (hk : Memory.wf (d :: k) = true)
    (ha : Memory.read (d :: k) a ≠ Memory.unlisted) : d.1 ≤ a := by
  obtain ⟨-, -, hrise, -⟩ := (Memory.wf_cons d k).1 hk
  by_contra hlt
  refine ha (Memory.read_eq_unlisted fun c hc => ?_)
  rcases List.mem_cons.1 hc with rfl | hc
  · omega
  · have := hrise c hc
    omega

/-- Of two canonical memories that read the same, neither begins after the other. -/
theorem Memory.head_le_head {c d : Host.Cell} {m k : Memory} (hm : Memory.wf (c :: m) = true)
    (hk : Memory.wf (d :: k) = true) (h : ∀ a, a < 4096 → Memory.read (c :: m) a = Memory.read (d :: k) a) :
    d.1 ≤ c.1 := by
  obtain ⟨hlt, hne, -, -⟩ := (Memory.wf_cons c m).1 hm
  refine Memory.head_le_of_read_ne hk ?_
  rwa [← h c.1 hlt, Memory.read_head]

/-- A canonical memory that reads as unlisted everywhere is empty. -/
theorem Memory.eq_nil_of_read {m : Memory} (hm : m.wf = true) (h : ∀ a, a < 4096 → m.read a = Memory.unlisted) :
    m = [] := by
  cases m with
  | nil => rfl
  | cons c m =>
    obtain ⟨hlt, hne, -, -⟩ := (Memory.wf_cons c m).1 hm
    exact absurd ((Memory.read_head c m).symm.trans (h c.1 hlt)) hne

/-- The cells behind equal heads read the same: at the head's address both are unlisted, elsewhere the head is passed
over. -/
theorem Memory.read_tail_eq {c : Host.Cell} {m k : Memory} (hm : Memory.wf (c :: m) = true)
    (hk : Memory.wf (c :: k) = true) {a : Nat} (h : Memory.read (c :: m) a = Memory.read (c :: k) a) :
    m.read a = k.read a := by
  obtain ⟨-, -, hrm, -⟩ := (Memory.wf_cons c m).1 hm
  obtain ⟨-, -, hrk, -⟩ := (Memory.wf_cons c k).1 hk
  by_cases hca : c.1 = a
  · subst hca
    rw [Memory.read_eq_unlisted fun d hd => (hrm d hd).ne', Memory.read_eq_unlisted fun d hd => (hrk d hd).ne']
  · simpa only [Memory.read, if_neg hca] using h

/-- Settles O22, by induction on the first memory: the two heads have one address and so, read there, one value; the tails
read the same again. -/
theorem canonicalMemoriesThatReadEqualAreEqual : Obligations.CanonicalMemoriesThatReadEqualAreEqual := by
  intro m
  induction m with
  | nil => exact fun k _ hk h => (Memory.eq_nil_of_read hk fun a ha => (h a ha).symm).symm
  | cons c m ih =>
    intro k hm hk h
    cases k with
    | nil => exact Memory.eq_nil_of_read hm h
    | cons d k =>
      have haddr : c.1 = d.1 :=
        Nat.le_antisymm (Memory.head_le_head hk hm fun a ha => (h a ha).symm) (Memory.head_le_head hm hk h)
      obtain ⟨hlt, -, -, hmt⟩ := (Memory.wf_cons c m).1 hm
      obtain ⟨-, -, -, hkt⟩ := (Memory.wf_cons d k).1 hk
      have hval : c.2 = d.2 := by
        rw [← Memory.read_head c m, h c.1 hlt, haddr, Memory.read_head]
      obtain rfl : c = d := Prod.ext haddr hval
      rw [ih k hmt hkt fun a ha => Memory.read_tail_eq hm hk (h a ha)]

end Sys2Proof.Machine
end

section
/-!
PROOFS. The step as a whole: its parts in order, and that no run stops (40_cycle sections 1 to 3).
-/

open Sys2Proof.Certificates

namespace Sys2Proof.Machine

/-- Settles O8: the cycle's begin is one record update; its `pc` is 2 on in sixteen bits. -/
theorem cycleLatchesKeysFetchesAndAdvances : Obligations.CycleLatchesKeysFetchesAndAdvances := fun s =>
  ⟨rfl, rfl, rfl, rfl, BitVec.toNat_add s.pc 2#16, rfl⟩

theorem step_next (s : State) : ∃ t, step s = .next t := by
  obtain ⟨t, ht⟩ := execDecoded_next (decode s.fetchWord) s.beginCycle
  exact ⟨_, step_of_exec s t ht⟩

/-- A run begins with a step. -/
theorem run_succ {s t : State} (n : Nat) (h : step s = .next t) :
    Host.Core.run core (n + 1) s = Host.Core.run core n t := by
  have hstep : core.step s = .next t := h
  simp only [Host.Core.run, hstep]

/-- Settles O12, by induction on the number of cycles: every step answers a state to go on from. -/
theorem noRunEverStops : Obligations.NoRunEverStops := by
  intro n
  induction n with
  | zero => exact fun s => ⟨s, rfl⟩
  | succ n ih =>
    intro s
    obtain ⟨t, ht⟩ := step_next s
    rw [run_succ n ht]
    exact ih t

/-- The word fetched is the one the bytes at `pc` decode from. -/
theorem decode_fetchWord {s : State} {i : Instr} (h : NextIs s i) : decode s.fetchWord = .instr i := h

/-- A step in a state whose bytes at `pc` are `i` is the execution of `i` within the cycle's frame. -/
theorem step_of_nextIs {s t : State} {i : Instr} (h : NextIs s i) (ht : exec i s.beginCycle = .next t) :
    step s = .next (t.endCycle s.nextInput.ticks) := by
  apply step_of_exec
  rw [decode_fetchWord h]
  exact ht

theorem State.nextInput_of_cons {s : State} {inp : CycleInput} {rest : List CycleInput} (h : s.inputs = inp :: rest) :
    s.nextInput = inp := by
  rw [State.nextInput, h]

theorem State.nextInput_of_nil {s : State} (h : s.inputs = []) :
    s.nextInput = ⟨Config.freeKeys s.cycle, Config.freeRnd s.cycle, Config.freeTicks s.cycle⟩ := by
  rw [State.nextInput, h]

/-- Settles O9: the state written out is the one the cycle's begin gives, and its end counts both timers down. -/
theorem stepRunsTheDecodedInstruction : Obligations.StepRunsTheDecodedInstruction :=
  ⟨fun _ _ _ hi ht => step_of_nextIs hi ht, fun _ _ _ => State.nextInput_of_cons, fun _ => State.nextInput_of_nil⟩

/-- Settles O10: executing an unknown opcode is the report alone; the word reported is the one fetched. -/
theorem stepOnAnUnknownOpcodeOnlyAdvances : Obligations.StepOnAnUnknownOpcodeOnlyAdvances := by
  intro s w h
  have hw : s.fetchWord = w := decode_eq_unknown h
  have hexec : execDecoded (decode s.fetchWord) s.beginCycle = .next (s.beginCycle.report .unknownOpcode) := by
    rw [show decode s.fetchWord = .unknown w from h]
    rfl
  rw [step_of_exec s _ hexec, ← hw]
  rfl

end Sys2Proof.Machine
end

section
/-!
PROOFS. What an instruction leaves unchanged: components, registers (10_state R20, R23, R25, 60_exceptions R211).
-/

namespace Sys2Proof.Machine

/-! ### The key wait -/

theorem exec_opFX0A_of_none {s : State} (x : RegNum) (h : lowestKey s.key = none) :
    exec (.opFX0A x) s = .next (s.setPc (s.pc - 2#16)) := by
  simp only [exec, execFX0A, h]

theorem exec_opFX0A_of_some {s : State} (x : RegNum) {k : Fin 16} (h : lowestKey s.key = some k) :
    exec (.opFX0A x) s = .next (s.setReg x (BitVec.ofNat 8 k.val)) := by
  simp only [exec, execFX0A, h]

/-! ### Components -/

/-- An instruction changes general registers and, of the other components, those that it is listed for. -/
theorem exec_frame {i : Instr} {s t : State} (h : exec i s = .next t) :
    t = { s with
      x := t.x
      pc := if mayWritePc i then t.pc else s.pc
      mem := if mayWriteMem i then t.mem else s.mem
      I := if mayWriteIndex i then t.I else s.I
      stack := if mayWriteSlots i then t.stack else s.stack
      sp := if mayWriteSp i then t.sp else s.sp
      fb := if mayWriteFb i then t.fb else s.fb
      DT := if mayWriteDelay i then t.DT else s.DT
      ST := if mayWriteSound i then t.ST else s.ST
      diag := if mayReport i then t.diag else s.diag } := by
  cases i <;> simp only [exec] at h
  case op00EE =>
    obtain rfl : s.returnFromCall = t := Host.Outcome.next.inj h
    rcases s.returnFromCall_cases with ⟨_, e⟩ | ⟨_, e⟩ <;> (rw [e]; rfl)
  case op2NNN nnn =>
    obtain rfl : s.callTo (zext12 nnn) = t := Host.Outcome.next.inj h
    rcases s.callTo_cases (zext12 nnn) with ⟨_, e⟩ | ⟨_, e⟩ <;> (rw [e]; rfl)
  case opFX0A x =>
    cases hk : lowestKey s.key with
    | none => cases h.symm.trans (exec_opFX0A_of_none x hk); rfl
    | some k => cases h.symm.trans (exec_opFX0A_of_some x hk); rfl
  all_goals
    injection h with h
    subst h
    rfl

theorem eq_of_eq_ite {α : Type} {c : Bool} {a b : α} (h : a = if c then a else b) (hc : c = false) : a = b := by
  simpa [hc] using h

/-- Settles O13, component by component from the frame. -/
theorem onlyTheListedInstructionsWriteAComponent : Obligations.OnlyTheListedInstructionsWriteAComponent := by
  intro i s t h
  have e := exec_frame h
  exact ⟨eq_of_eq_ite (congrArg State.pc e),
    fun hc => s.memRead_congr t (eq_of_eq_ite (congrArg State.mem e) hc),
    eq_of_eq_ite (congrArg State.I e), eq_of_eq_ite (congrArg State.stack e), eq_of_eq_ite (congrArg State.sp e),
    eq_of_eq_ite (congrArg State.fb e), eq_of_eq_ite (congrArg State.DT e), eq_of_eq_ite (congrArg State.ST e),
    eq_of_eq_ite (congrArg State.diag e), (congrArg State.key e :), (congrArg State.rnd e :),
    (congrArg State.executedOpcode e :), (congrArg State.pcBefore e :), (congrArg State.started e :),
    (congrArg State.inputs e :), (congrArg State.cycle e :)⟩

/-! ### Registers -/

theorem State.onlyRegs_setRegThenFlag (s : State) (r : RegNum) (v f : Byte) :
    OnlyRegs s (s.setRegThenFlag r v f) [r, 15] := by
  refine ⟨rfl, fun q hq => ?_, fun _ => rfl⟩
  simp only [List.mem_cons, List.not_mem_nil, or_false, not_or] at hq
  rw [State.reg_setRegThenFlag, if_neg hq.2, if_neg hq.1]

theorem State.x_callTo (s : State) (target : Word) : (s.callTo target).x = s.x := by
  rcases s.callTo_cases target with ⟨_, e⟩ | ⟨_, e⟩ <;> exact e ▸ rfl

theorem State.x_returnFromCall (s : State) : s.returnFromCall.x = s.x := by
  rcases s.returnFromCall_cases with ⟨_, e⟩ | ⟨_, e⟩ <;> exact e ▸ rfl

theorem State.reg_setReg_of_not_mem (s : State) {r q : RegNum} (v : Byte) (h : q ∉ [r]) :
    (s.setReg r v).reg q = s.reg q := by
  rw [State.reg_setReg, if_neg (List.ne_of_not_mem_cons h)]

theorem State.reg_setRegThenFlag_of_not_mem (s : State) {r q : RegNum} (v f : Byte) (h : q ∉ [r, 15]) :
    (s.setRegThenFlag r v f).reg q = s.reg q := by
  obtain ⟨-, hreg, -⟩ := s.onlyRegs_setRegThenFlag r v f
  exact hreg q h

/-- Settles O14, by the operation that each instruction writes registers with: one register, a register and the flag, the
registers up to `X`; the other instructions leave the register file. -/
theorem onlyTheListedRegistersAreWritten : Obligations.OnlyTheListedRegistersAreWritten := by
  intro i s t r h hr
  cases i <;> simp only [exec] at h
  case op6XNN | op7XNN | opCXNN | op8XY0 | op8XY1 | op8XY2 | op8XY3 | opFX07 =>
    injection h with h
    subst h
    exact s.reg_setReg_of_not_mem _ hr
  case op8XY4 | op8XY5 | op8XY6 | op8XY7 | op8XYE =>
    injection h with h
    subst h
    exact s.reg_setRegThenFlag_of_not_mem _ _ hr
  case opDXYN =>
    injection h with h
    subst h
    exact State.reg_setReg_of_not_mem (s.setFb _) _ hr
  case opFX0A x =>
    cases hk : lowestKey s.key with
    | none => cases h.symm.trans (exec_opFX0A_of_none x hk); rfl
    | some k =>
      cases h.symm.trans (exec_opFX0A_of_some x hk)
      exact s.reg_setReg_of_not_mem _ hr
  case opFX65 =>
    injection h with h
    subst h
    rw [State.reg_loadRegs, if_neg (by simpa [writtenRegs] using hr)]
  case op00EE =>
    injection h with h
    subst h
    exact s.reg_congr _ s.x_returnFromCall r
  case op2NNN =>
    injection h with h
    subst h
    exact s.reg_congr _ (s.x_callTo _) r
  all_goals
    injection h with h
    subst h
    rfl

end Sys2Proof.Machine
end

section
/-!
PROOFS. What an instruction does not look at: the random byte (43_alu section 6) and the dead stack slots (10_state
section 6).
-/

namespace Sys2Proof.Machine

/-! ### The random byte -/

theorem State.callTo_withRnd (s : State) (target : Word) (v : Byte) :
    ({ s with rnd := v } : State).callTo target = { s.callTo target with rnd := v } := by
  unfold State.callTo
  split <;> rfl

theorem State.returnFromCall_withRnd (s : State) (v : Byte) :
    ({ s with rnd := v } : State).returnFromCall = { s.returnFromCall with rnd := v } := by
  unfold State.returnFromCall
  split <;> rfl

/-- Settles O15: CXNN alone reads the latch, and no instruction writes it. -/
theorem onlyCXNNDependsOnTheRandomByte : Obligations.OnlyCXNNDependsOnTheRandomByte := by
  intro i s t v hi h
  cases i
  case opCXNN x nn => exact absurd rfl (hi x nn)
  case op00EE =>
    injection h with h
    subst h
    exact congrArg Host.Outcome.next (s.returnFromCall_withRnd v)
  case op2NNN nnn =>
    injection h with h
    subst h
    exact congrArg Host.Outcome.next (s.callTo_withRnd (zext12 nnn) v)
  case opFX0A x =>
    cases hk : lowestKey s.key with
    | none => cases h.symm.trans (exec_opFX0A_of_none x hk); exact exec_opFX0A_of_none x hk
    | some k => cases h.symm.trans (exec_opFX0A_of_some x hk); exact exec_opFX0A_of_some x hk
  all_goals
    injection h with h
    subst h
    rfl

/-! ### The stack's slots -/

/-- The instruction that writes a slot writes the pointer too. -/
theorem mayWriteSlots_of_mayWriteSp {i : Instr} : mayWriteSp i = false → mayWriteSlots i = false := by
  cases i <;> simp [mayWriteSp, mayWriteSlots]

/-- Other slots make no difference to an instruction that is neither a call nor a return. -/
theorem exec_withStack {i : Instr} {s t : State} (k : Vector Word 16) (hi : mayWriteSp i = false)
    (h : exec i s = .next t) : exec i { s with stack := k } = .next { t with stack := k } := by
  cases i
  case op00EE | op2NNN => cases hi
  case opFX0A x =>
    cases hk : lowestKey s.key with
    | none => cases h.symm.trans (exec_opFX0A_of_none x hk); exact exec_opFX0A_of_none x hk
    | some k => cases h.symm.trans (exec_opFX0A_of_some x hk); exact exec_opFX0A_of_some x hk
  all_goals
    injection h with h
    subst h
    rfl

theorem State.callTo_of_lt {s : State} (h : s.sp.val < 16) (target : Word) : s.callTo target =
    { s with stack := s.stack.set s.sp.val s.pc, sp := ⟨s.sp.val + 1, by omega⟩, pc := target } := dif_pos h

theorem State.callTo_of_full {s : State} (h : s.sp.val = 16) (target : Word) :
    s.callTo target = s.report .stackOverflow := dif_neg (by omega)

theorem State.returnFromCall_of_pos {s : State} (h : 0 < s.sp.val) : s.returnFromCall =
    { s with sp := ⟨s.sp.val - 1, by omega⟩, pc := s.stack[s.sp.val - 1]'(by omega) } := dif_pos h

theorem State.returnFromCall_of_empty {s : State} (h : s.sp.val = 0) :
    s.returnFromCall = s.report .stackUnderflow := dif_neg (by omega)

/-- Two states that agree are one state with two files of slots. -/
theorem AgreeButDeadSlots.exists_slots {s t : State} (h : AgreeButDeadSlots s t) :
    ∃ k : Vector Word 16, t = { s with stack := k } ∧ ∀ j : Fin 16, j.val < s.sp.val → k[j] = s.stack[j] :=
  ⟨t.stack, h⟩

/-- A call writes the first dead slot and makes it live, with one value in both states. -/
theorem AgreeButDeadSlots.callTo {s t : State} (h : AgreeButDeadSlots s t) (target : Word) :
    AgreeButDeadSlots (s.callTo target) (t.callTo target) := by
  obtain ⟨k, rfl, hlive⟩ := h.exists_slots
  by_cases hsp : s.sp.val < 16
  · rw [State.callTo_of_lt hsp, State.callTo_of_lt (s := { s with stack := k }) hsp]
    refine ⟨rfl, fun j hj => ?_⟩
    simp only [Fin.getElem_fin, Vector.getElem_set]
    split
    next => rfl
    next hne => exact hlive j (by simp only at hj; omega)
  · have hfull : s.sp.val = 16 := by omega
    rw [State.callTo_of_full hfull, State.callTo_of_full (s := { s with stack := k }) hfull]
    exact ⟨rfl, hlive⟩

/-- A return reads a live slot, on which both states agree. -/
theorem AgreeButDeadSlots.returnFromCall {s t : State} (h : AgreeButDeadSlots s t) :
    AgreeButDeadSlots s.returnFromCall t.returnFromCall := by
  obtain ⟨k, rfl, hlive⟩ := h.exists_slots
  by_cases hsp : 0 < s.sp.val
  · have htop : k[s.sp.val - 1] = s.stack[s.sp.val - 1] := hlive ⟨s.sp.val - 1, by omega⟩ (by simp only; omega)
    rw [State.returnFromCall_of_pos hsp, State.returnFromCall_of_pos (s := { s with stack := k }) hsp]
    simp only [htop]
    exact ⟨rfl, fun j hj => hlive j (by simp only at hj; omega)⟩
  · have hempty : s.sp.val = 0 := by omega
    rw [State.returnFromCall_of_empty hempty, State.returnFromCall_of_empty (s := { s with stack := k }) hempty]
    exact ⟨rfl, hlive⟩

/-- Executing one instruction in two states that agree gives two states that agree. -/
theorem AgreeButDeadSlots.exec {i : Instr} {s t u v : State} (h : AgreeButDeadSlots s t) (hu : exec i s = .next u)
    (hv : exec i t = .next v) : AgreeButDeadSlots u v := by
  cases hi : mayWriteSp i with
  | true =>
    cases i
    case op00EE => cases hu; cases hv; exact h.returnFromCall
    case op2NNN => cases hu; cases hv; exact h.callTo _
    all_goals cases hi
  | false =>
    obtain ⟨k, rfl, hlive⟩ := h.exists_slots
    cases hv.symm.trans (exec_withStack k hi hu)
    have hslots : u.stack = s.stack  :=
      eq_of_eq_ite (congrArg State.stack (exec_frame hu)) (mayWriteSlots_of_mayWriteSp hi)
    have hsp : u.sp = s.sp := eq_of_eq_ite (congrArg State.sp (exec_frame hu)) hi
    refine ⟨rfl, ?_⟩
    rw [hslots, hsp]
    exact hlive

theorem AgreeButDeadSlots.execDecoded {d : Decoded} {s t u v : State} (h : AgreeButDeadSlots s t)
    (hu : execDecoded d s = .next u) (hv : execDecoded d t = .next v) : AgreeButDeadSlots u v := by
  cases d with
  | instr i => exact AgreeButDeadSlots.exec h hu hv
  | unknown w =>
    obtain ⟨k, rfl, hlive⟩ := h.exists_slots
    cases hu
    cases hv
    exact ⟨rfl, hlive⟩

theorem AgreeButDeadSlots.beginCycle {s t : State} (h : AgreeButDeadSlots s t) :
    AgreeButDeadSlots s.beginCycle t.beginCycle := by
  obtain ⟨k, rfl, hlive⟩ := h.exists_slots
  exact ⟨rfl, hlive⟩

theorem AgreeButDeadSlots.endCycle {s t : State} (h : AgreeButDeadSlots s t) (n : Nat) :
    AgreeButDeadSlots (s.endCycle n) (t.endCycle n) := by
  obtain ⟨k, rfl, hlive⟩ := h.exists_slots
  exact ⟨rfl, hlive⟩

/-- Settles O16: both states fetch one word and take one cycle's inputs, and each part of the step keeps the agreement. -/
theorem deadStackSlotsAreUnobservable : Obligations.DeadStackSlotsAreUnobservable := by
  intro s t h
  have hfetch : t.fetchWord = s.fetchWord := by obtain ⟨k, rfl, -⟩ := h.exists_slots; rfl
  have hinput : t.nextInput = s.nextInput := by obtain ⟨k, rfl, -⟩ := h.exists_slots; rfl
  obtain ⟨u, hu⟩ := execDecoded_next (decode s.fetchWord) s.beginCycle
  obtain ⟨v, hv⟩ := execDecoded_next (decode t.fetchWord) t.beginCycle
  refine ⟨_, _, step_of_exec s u hu, step_of_exec t v hv, ?_⟩
  rw [hfetch] at hv
  rw [hinput]
  exact (h.beginCycle.execDecoded hu hv).endCycle _

end Sys2Proof.Machine
end

section
/-!
PROOFS. Call and return: the live stack as a list, the two cases of each instruction, and a call that comes back (10_state
R34, 41_flow R140, R142).
-/

open Sys2Proof.Certificates

namespace Sys2Proof.Machine

/-! ### The live stack -/

/-- The slots before `k`, with the one at `k` written last. -/
theorem take_succ_toList_set (v : Vector Word 16) {k : Nat} (hk : k < 16) (a : Word) :
    (v.set k a).toList.take (k + 1) = v.toList.take k ++ [a] := by
  rw [List.take_succ_eq_append_getElem (by simpa using hk)]
  simp [Vector.toList_set, List.take_set_of_le]

theorem take_toList_eq_append (v : Vector Word 16) {k : Nat} (hpos : 0 < k) (hk : k ≤ 16) :
    v.toList.take k = v.toList.take (k - 1) ++ [v[k - 1]] := by
  obtain ⟨j, rfl⟩ : ∃ j, k = j + 1 := ⟨k - 1, by omega⟩
  rw [List.take_succ_eq_append_getElem (by simpa using hk)]
  simp

theorem exec_op00EE (s : State) : exec .op00EE s = .next s.returnFromCall := rfl

theorem exec_op2NNN (nnn : Addr) (s : State) : exec (.op2NNN nnn) s = .next (s.callTo (zext12 nnn)) := rfl

/-- Settles O31: the two cases of a return, the top of the live stack being the slot below `sp`. -/
theorem returnPopsOrReportsUnderflow : Obligations.ReturnPopsOrReportsUnderflow := by
  refine fun s => ⟨fun hsp => ⟨_, exec_op00EE s, ?_⟩, fun hsp => ?_⟩
  · rw [State.returnFromCall_of_pos hsp]
    exact ⟨rfl, take_toList_eq_append s.stack hsp (by omega), rfl, fun _ => rfl, fun _ => rfl⟩
  · rw [exec_op00EE, State.returnFromCall_of_empty hsp]
    rfl

/-- Settles O33: the two cases of a call, the slot at `sp` becoming the top of the live stack. -/
theorem callPushesOrReportsOverflow : Obligations.CallPushesOrReportsOverflow := by
  refine fun s nnn => ⟨fun hsp => ⟨_, exec_op2NNN nnn s, ?_⟩, fun hsp => ?_⟩
  · rw [State.callTo_of_lt hsp]
    exact ⟨toNat_zext12 nnn, rfl, take_succ_toList_set s.stack hsp s.pc, rfl, fun _ => rfl, fun _ => rfl⟩
  · rw [exec_op2NNN, State.callTo_of_full hsp]
    rfl

/-- Settles O17: the call pushes the address after it, and the return pops what was pushed: the live stack before the
return is at once the old one with that address on top, and the new one with the new `pc` on top. -/
theorem callThenReturnComesBack : Obligations.CallThenReturnComesBack := by
  intro s nnn hsp hcall hret
  obtain ⟨t, ht, hpc, htsp, htlive, htframe, -, htmem⟩ := (callPushesOrReportsOverflow s.beginCycle nnn).1 hsp
  have hnext : NextIs (t.endCycle s.nextInput.ticks) .op00EE := by
    show decodeBytes (t.memRead t.pc.toNat) (t.memRead (t.pc.toNat + 1)) = .instr .op00EE
    rw [hpc, htmem, htmem]
    exact hret
  have hpos : 0 < t.sp.val := by omega
  obtain ⟨u, hu, husp, hulive, huframe, -⟩ :=
    (returnPopsOrReportsUnderflow (t.endCycle s.nextInput.ticks).beginCycle).1 hpos
  obtain ⟨hlive, htop⟩ := List.append_inj' (htlive.symm.trans hulive) rfl
  have hsp' : u.sp.val = s.sp.val := by
    rw [husp, State.beginCycle_sp, State.endCycle_sp, htsp]
    rfl
  exact ⟨_, _, step_of_nextIs hcall ht, step_of_nextIs hnext hu, hpc, htsp, htlive, (List.singleton_inj.1 htop).symm,
    Fin.ext hsp', hlive.symm, (congrArg State.x huframe :).trans (congrArg State.x htframe :),
    (congrArg State.mem huframe :).trans (congrArg State.mem htframe :),
    (congrArg State.fb huframe :).trans (congrArg State.fb htframe :)⟩

end Sys2Proof.Machine
end

section
/-!
PROOFS. The jump with an offset, the skips on registers and on a key, and the operations on the index register
(41_flow R143, 42_skip R152 to R155, 44_index_memory R181).
-/

open Sys2Proof.Certificates

namespace Sys2Proof.Machine

theorem toNat_zext8 (v : Byte) : (zext8 v).toNat = v.toNat := BitVec.toNat_setWidth_of_le (by decide)

theorem exec_opBNNN (nnn : Addr) (s : State) :
    exec (.opBNNN nnn) s = .next (s.setPc (zext8 (s.reg 0) + zext12 nnn)) := rfl

/-- Settles O34: the words of class B are one row; an 8-bit and a 12-bit number have a sum below 65536. -/
theorem jumpWithOffsetAddsRegisterZero : Obligations.JumpWithOffsetAddsRegisterZero := by
  refine ⟨fun w hrow => decode_of_row (.opBNNN 0#12) hrow, fun s nnn => ⟨_, exec_opBNNN nnn s, ?_, s.onlyPc_setPc _⟩⟩
  have hreg := (s.reg 0).isLt; have hnnn := nnn.isLt
  rw [State.setPc_pc, BitVec.toNat_add, toNat_zext8, toNat_zext12]
  omega

theorem exec_op5XY0 (x y : RegNum) (s : State) :
    exec (.op5XY0 x y) s = .next (s.skipIf (s.reg x == s.reg y)) := rfl

theorem exec_op9XY0 (x y : RegNum) (s : State) :
    exec (.op9XY0 x y) s = .next (s.skipIf (s.reg x != s.reg y)) := rfl

/-- Settles O36: the words of the classes 5 and 9 are one row each; each instruction is one `Skip()`, on the registers'
equality and on its opposite. -/
theorem skipOnRegisters : Obligations.SkipOnRegisters := by
  refine ⟨fun w hrow => ?_, fun w hrow => ?_, fun s x y => ⟨?_, ?_⟩⟩
  · exact decode_of_row (.op5XY0 0 0) hrow
  · exact decode_of_row (.op9XY0 0 0) hrow
  · exact ⟨_, exec_op5XY0 x y s, s.onlyPc_skipIf _, s.toNat_pc_skipIf_beq (s.reg x) (s.reg y)⟩
  · exact ⟨_, exec_op9XY0 x y s, s.onlyPc_skipIf _, s.toNat_pc_skipIf_bne (s.reg x) (s.reg y)⟩

/-- The key that a register's value names is its low four bits. -/
theorem val_keyNumber (v : Byte) : (keyNumber v).val = v.toNat % 16 := by
  simp [keyNumber]

theorem State.keyDown_keyNumber (s : State) (v : Byte) : s.keyDown (keyNumber v) = s.key.getLsbD (v.toNat % 16) := by
  rw [State.keyDown, val_keyNumber]

theorem exec_opEX9E (x : RegNum) (s : State) :
    exec (.opEX9E x) s = .next (s.skipIf (s.keyDown (keyNumber (s.reg x)))) := rfl

theorem exec_opEXA1 (x : RegNum) (s : State) :
    exec (.opEXA1 x) s = .next (s.skipIf (!s.keyDown (keyNumber (s.reg x)))) := rfl

/-- Settles O37: each instruction is one `Skip()`, on the bit of the latched keys that the register names and on its
opposite. -/
theorem skipOnKey : Obligations.SkipOnKey := by
  refine fun s x => ⟨⟨_, exec_opEX9E x s, s.onlyPc_skipIf _, ?_⟩, ⟨_, exec_opEXA1 x s, s.onlyPc_skipIf _, ?_⟩⟩
  · rw [State.toNat_pc_skipIf, State.keyDown_keyNumber]
  · rw [State.toNat_pc_skipIf, State.keyDown_keyNumber]
    cases s.key.getLsbD ((s.reg x).toNat % 16) <;> rfl

theorem exec_opFX1E (x : RegNum) (s : State) :
    exec (.opFX1E x) s = .next (s.setIndex (s.I + zext8 (s.reg x))) := rfl

/-- Settles O47: the one write to `I` is of a sum in sixteen bits. -/
theorem addToIndexWrapsWithoutFlag : Obligations.AddToIndexWrapsWithoutFlag := by
  refine fun s x => ⟨_, exec_opFX1E x s, ?_, s.onlyIndex_setIndex _⟩
  rw [State.setIndex_I, BitVec.toNat_add, toNat_zext8]

end Sys2Proof.Machine
end

section
/-!
PROOFS. The ALU operations on two registers and the masked random byte: the result of each as a number or bit by bit, and
the flag, which is written last (43_alu R163 to R171, R173).
-/

namespace Sys2Proof.Machine

/-! ### Without a flag -/

theorem exec_op8XY1 (x y : RegNum) (s : State) :
    exec (.op8XY1 x y) s = .next (s.setReg x (s.reg x ||| s.reg y)) := rfl

theorem exec_op8XY2 (x y : RegNum) (s : State) :
    exec (.op8XY2 x y) s = .next (s.setReg x (s.reg x &&& s.reg y)) := rfl

theorem exec_op8XY3 (x y : RegNum) (s : State) :
    exec (.op8XY3 x y) s = .next (s.setReg x (s.reg x ^^^ s.reg y)) := rfl

/-- Settles O41: each instruction is one register write, of a value given bit by bit. -/
theorem bitwiseOperationsWriteNoFlag : Obligations.BitwiseOperationsWriteNoFlag := by
  refine fun s x y => ⟨⟨_, exec_op8XY1 x y s, s.onlyRegs_setReg x _, fun b => ?_⟩,
    ⟨_, exec_op8XY2 x y s, s.onlyRegs_setReg x _, fun b => ?_⟩,
    ⟨_, exec_op8XY3 x y s, s.onlyRegs_setReg x _, fun b => ?_⟩⟩
  · rw [State.reg_setReg_self, BitVec.getLsbD_or]
  · rw [State.reg_setReg_self, BitVec.getLsbD_and]
  · rw [State.reg_setReg_self, BitVec.getLsbD_xor]

theorem exec_opCXNN (x : RegNum) (nn : Byte) (s : State) :
    exec (.opCXNN x nn) s = .next (s.setReg x (s.rnd &&& nn)) := rfl

/-- Settles O45: the one register write is of the latched byte under the mask. -/
theorem randomByteIsMasked : Obligations.RandomByteIsMasked := by
  refine fun s x nn => ⟨_, exec_opCXNN x nn s, s.onlyRegs_setReg x _, fun b => ?_, ?_⟩
  · rw [State.reg_setReg_self, BitVec.getLsbD_and]
  · rw [State.reg_setReg_self, BitVec.toNat_and]
    exact Nat.and_le_right

/-! ### With a flag -/

theorem State.reg_setRegThenFlag_result (s : State) {x : RegNum} (hx : x ≠ 15) (v f : Byte) :
    (s.setRegThenFlag x v f).reg x = v := by
  rw [State.reg_setRegThenFlag, if_neg hx, if_pos rfl]

theorem State.reg_setRegThenFlag_flag (s : State) (x : RegNum) (v f : Byte) :
    (s.setRegThenFlag x v f).reg 15 = f := by
  rw [State.reg_setRegThenFlag, if_pos rfl]

/-- A flag as a number. -/
theorem toNat_flagByte (c : Bool) : (flagByte c).toNat = if c then 1 else 0 := by
  cases c <;> rfl

theorem toNat_flagByte_decide (p : Prop) [Decidable p] : (flagByte (decide p)).toNat = if p then 1 else 0 := by
  simp only [toNat_flagByte, decide_eq_true_eq]

/-- A difference of bytes as an integer: mod 256. -/
theorem toNat_sub_byte (a b : Byte) : ((a - b).toNat : Int) = (a.toNat - b.toNat : Int) % 256 := by
  have ha := a.isLt; have hb := b.isLt
  rw [BitVec.toNat_sub]
  omega

/-- The flag of one bit of a byte, as the number that the bit is. -/
theorem toNat_flagByte_getLsbD (v : Byte) (i : Nat) : (flagByte (v.getLsbD i)).toNat = v.toNat / 2 ^ i % 2 := by
  rw [BitVec.getLsbD, Nat.testBit_eq_decide_div_mod_eq, toNat_flagByte_decide]
  split <;> omega

theorem toNat_shiftRightFlag (v : Byte) : (shiftRightFlag v).toNat = v.toNat % 2 := by
  rw [shiftRightFlag, toNat_flagByte_getLsbD, pow_zero, Nat.div_one]

theorem toNat_shiftLeftFlag (v : Byte) : (shiftLeftFlag v).toNat = v.toNat / 128 := by
  have hv := v.isLt
  rw [shiftLeftFlag, toNat_flagByte_getLsbD]
  omega

theorem exec_op8XY4 (x y : RegNum) (s : State) : exec (.op8XY4 x y) s =
    .next (s.setRegThenFlag x (s.reg x + s.reg y) (carryFlag (s.reg x) (s.reg y))) := rfl

theorem exec_op8XY5 (x y : RegNum) (s : State) : exec (.op8XY5 x y) s =
    .next (s.setRegThenFlag x (s.reg x - s.reg y) (noBorrowFlag (s.reg x) (s.reg y))) := rfl

theorem exec_op8XY6 (x y : RegNum) (s : State) : exec (.op8XY6 x y) s =
    .next (s.setRegThenFlag x (s.reg y >>> 1) (shiftRightFlag (s.reg y))) := rfl

theorem exec_op8XY7 (x y : RegNum) (s : State) : exec (.op8XY7 x y) s =
    .next (s.setRegThenFlag x (s.reg y - s.reg x) (noBorrowFlag (s.reg y) (s.reg x))) := rfl

theorem exec_op8XYE (x y : RegNum) (s : State) : exec (.op8XYE x y) s =
    .next (s.setRegThenFlag x (s.reg y <<< 1) (shiftLeftFlag (s.reg y))) := rfl

/-- Settles O42: the result is the sum in eight bits, the flag says whether it lost a carry. -/
theorem addSetsCarry : Obligations.AddSetsCarry := by
  refine fun s x y => ⟨_, exec_op8XY4 x y s, s.onlyRegs_setRegThenFlag x _ _, fun hx => ?_, ?_⟩
  · rw [State.reg_setRegThenFlag_result _ hx, BitVec.toNat_add]
  · rw [State.reg_setRegThenFlag_flag]
    exact toNat_flagByte_decide _

/-- Settles O43: two differences in eight bits, each with its not-borrow. -/
theorem subtractSetsNotBorrow : Obligations.SubtractSetsNotBorrow := by
  refine fun s x y => ⟨⟨_, exec_op8XY5 x y s, s.onlyRegs_setRegThenFlag x _ _, fun hx => ?_, ?_⟩,
    ⟨_, exec_op8XY7 x y s, s.onlyRegs_setRegThenFlag x _ _, fun hx => ?_, ?_⟩⟩
  · rw [State.reg_setRegThenFlag_result _ hx, toNat_sub_byte]
  · rw [State.reg_setRegThenFlag_flag]
    exact toNat_flagByte_decide _
  · rw [State.reg_setRegThenFlag_result _ hx, toNat_sub_byte]
  · rw [State.reg_setRegThenFlag_flag]
    exact toNat_flagByte_decide _

/-- Settles O44: a shift by one is a division or a multiplication by 2, and the bit shifted out is the remainder or the
quotient that is lost. -/
theorem shiftsTakeTheSourceFromVy : Obligations.ShiftsTakeTheSourceFromVy := by
  refine fun s x y => ⟨⟨_, exec_op8XY6 x y s, s.onlyRegs_setRegThenFlag x _ _, fun hx => ?_, ?_⟩,
    ⟨_, exec_op8XYE x y s, s.onlyRegs_setRegThenFlag x _ _, fun hx => ?_, ?_⟩⟩
  · rw [State.reg_setRegThenFlag_result _ hx, BitVec.toNat_ushiftRight, Nat.shiftRight_eq_div_pow, pow_one]
  · rw [State.reg_setRegThenFlag_flag, toNat_shiftRightFlag]
  · rw [State.reg_setRegThenFlag_result _ hx, BitVec.toNat_shiftLeft, Nat.shiftLeft_eq, pow_one]
  · rw [State.reg_setRegThenFlag_flag, toNat_shiftLeftFlag]

end Sys2Proof.Machine
end

section
/-!
PROOFS. Reset and the block's ports: what a reset shows, the framebuffer and sound outputs, and the two ways a program is
loaded (60_exceptions R221 to R226, 70_reset R240, R244).
-/

namespace Sys2Proof.Machine

/-- Settles O27: the components are those of the reset state, whose reads are known; the framebuffer port shows a dark
pixel as 0. -/
theorem resetFromAnyStateClearsEverything : Obligations.ResetFromAnyStateClearsEverything := fun s =>
  have hfb (p : BitVec 11) : s.assertReset.fbData p = 0#8 :=
    if_neg (Bool.eq_false_iff.1 (State.pixel_reset p.toNat))
  ⟨State.memRead_reset, rfl, rfl, State.stack_reset, rfl, rfl, rfl, State.reg_reset, State.pixel_reset, rfl, rfl, rfl,
    rfl, rfl, rfl, hfb, rfl, rfl, rfl⟩

/-- The framebuffer port shows a pixel as the number 1 or 0. -/
theorem State.toNat_fbData (s : State) (p : BitVec 11) : (s.fbData p).toNat = if s.pixel p.toNat then 1 else 0 := by
  rw [State.fbData]
  split <;> rfl

theorem State.toneOn_iff (s : State) : s.toneOn = true ↔ s.ST ≠ 0#8 := by
  rw [State.toneOn, decide_eq_true_eq, ne_eq, ← BitVec.toNat_inj]
  exact Nat.pos_iff_ne_zero

/-- Settles O30: a pixel of the grid has a port address, below 2048. -/
theorem outputPortsShowPixelsAndTone : Obligations.OutputPortsShowPixelsAndTone := by
  refine fun s => ⟨fun xx yy hx hy => ?_, rfl, s.toneOn_iff⟩
  have haddr : (BitVec.ofNat 11 (yy * 64 + xx)).toNat = yy * 64 + xx := by
    rw [BitVec.toNat_ofNat]
    omega
  rw [State.toNat_fbData, haddr]
  cases s.pixel (yy * 64 + xx) <;> simp

/-! ### Loading -/

theorem loadProgram_of_too_large {image : List Byte} (s : State) (h : 3584 < image.length) :
    loadProgram image s = .refused (.imageTooLarge image.length) := by
  have hfits : imageFits image = false := Bool.eq_false_iff.2 fun hf => by
    have := (imageFits_iff image).1 hf
    omega
  rw [loadProgram, hfits]
  rfl

theorem loadProgram_of_started {image : List Byte} {s : State} (hl : image.length ≤ 3584) (hs : s.started = true) :
    loadProgram image s = .refused .loadAfterStart := by
  rw [loadProgram, (imageFits_iff image).2 hl, hs]
  rfl

/-- Settles O29: the load is a write of bytes at `0x200`; up to the end of memory no address comes round again. -/
theorem loadPlacesTheImageOrRejectsIt : Obligations.LoadPlacesTheImageOrRejectsIt := by
  refine fun image s => ⟨fun hl hs => ⟨_, loadProgram_next image s hs hl, rfl, fun k hk => ?_, fun a ha hout => ?_⟩,
    loadProgram_of_too_large s, loadProgram_of_started, rfl⟩
  · exact s.memRead_memWriteBytes_at 0x200 k image hk (by omega)
  · refine s.memRead_memWriteBytes_other 0x200 a image fun k hk => ?_
    omega

/-! ### The load port -/

theorem State.onlyBytes_memWriteBytes (s : State) (a : Nat) (bs : List Byte) :
    OnlyBytes s (s.memWriteBytes a bs) a bs.length :=
  ⟨rfl, fun _ => rfl, fun b hb => s.memRead_memWriteBytes_other a b bs hb⟩

theorem loadByte_of_low {addr : Addr} (data : Byte) {s : State} (hs : s.started = false) (ha : addr.toNat < 0x200) :
    loadByte addr data s = .refused (.loadBelowOrigin addr.toNat) := by
  rw [loadByte, hs, if_neg Bool.false_ne_true, if_pos (show addr.toNat < Config.progOrigin from ha)]

theorem loadByte_of_started (addr : Addr) (data : Byte) {s : State} (hs : s.started = true) :
    loadByte addr data s = .refused .loadAfterStart := by
  rw [loadByte, if_pos hs]

/-- Executing leaves the port as it is; a step has closed it before it executes. -/
theorem started_of_execDecoded {d : Decoded} {s t : State} (h : execDecoded d s = .next t) : t.started = s.started := by
  cases d with
  | instr i => exact (congrArg State.started (exec_frame h) :)
  | unknown w =>
    injection h with h
    subst h
    rfl

theorem started_of_step {s t : State} (h : step s = .next t) : t.started = true := by
  obtain ⟨u, hu, rfl⟩ := step_cases s t h
  rw [State.endCycle_started, started_of_execDecoded hu, State.beginCycle_started]

/-- Settles O57: a port write is a write of one byte, which goes where the port's discipline lets it. -/
theorem loadPortWritesOneByteOrRefuses : Obligations.LoadPortWritesOneByteOrRefuses := by
  intro addr data s
  obtain ⟨t, ht⟩ := step_next s
  refine ⟨fun hs ha => ⟨_, loadByte_next addr data s hs ha, ?_, ?_⟩, loadByte_of_low data,
    loadByte_of_started addr data, ⟨t, ht, started_of_step ht⟩, rfl⟩
  · rw [State.memRead_memWrite, if_pos rfl]
  · exact s.onlyBytes_memWriteBytes addr.toNat [data]

end Sys2Proof.Machine
end

section
/-!
PROOFS. The instructions that store and load bytes through `I`, and code that a store puts where it is fetched next
(44_index_memory R182 to R185, 20_memory section 8).
-/

open Sys2Proof.Certificates

namespace Sys2Proof.Machine

theorem exec_opFX33 (x : RegNum) (s : State) :
    exec (.opFX33 x) s = .next (s.memWriteBytes s.I.toNat (decimalDigits (s.reg x))) := rfl

theorem exec_opFX55 (x : RegNum) (s : State) :
    exec (.opFX55 x) s = .next (s.memWriteBytes s.I.toNat (s.regsUpTo x)) := rfl

theorem exec_opFX65 (x : RegNum) (s : State) :
    exec (.opFX65 x) s = .next (s.loadRegs x fun i => s.memRead (s.I.toNat + i.val)) := rfl

theorem toNat_ofNat_byte {n : Nat} (h : n < 256) : (BitVec.ofNat 8 n).toNat = n := Nat.mod_eq_of_lt h

/-- Addresses that agree mod 4096 read the same. -/
theorem State.memRead_congr_addr (s : State) {a b : Nat} (h : a % 4096 = b % 4096) : s.memRead a = s.memRead b := by
  rw [← s.memRead_mod a, h, s.memRead_mod b]

/-- Settles O48: the three digits are bytes that hold them whole. -/
theorem storeDecimalDigits : Obligations.StoreDecimalDigits := by
  refine ⟨fun w hrow => decode_of_row (.opFX33 0) hrow, fun s x => ⟨_, exec_opFX33 x s, ?_⟩⟩
  have hv := (s.reg x).isLt
  have read (k : Nat) (hk : k < 3) :=
    s.memRead_memWriteBytes_at s.I.toNat k (decimalDigits (s.reg x)) hk (show 3 ≤ 4096 by decide)
  have hundreds := congrArg BitVec.toNat (read 0 (by decide))
  have tens := congrArg BitVec.toNat (read 1 (by decide))
  have ones := congrArg BitVec.toNat (read 2 (by decide))
  refine ⟨hundreds.trans (toNat_ofNat_byte ?_), tens.trans (toNat_ofNat_byte ?_), ones.trans (toNat_ofNat_byte ?_),
    s.onlyBytes_memWriteBytes s.I.toNat _⟩ <;> omega

/-- What FX55 stores, read back: register `i` at `I + i`. -/
theorem State.memRead_store_regsUpTo (s : State) (a : Nat) {i x : RegNum} (h : i.val ≤ x.val) :
    (s.memWriteBytes a (s.regsUpTo x)).memRead (a + i.val) = s.reg i := by
  have hi : i.val < (s.regsUpTo x).length := by
    rw [State.regsUpTo_length]
    omega
  rw [s.memRead_memWriteBytes_at a i.val _ hi (by rw [State.regsUpTo_length]; omega), State.regsUpTo_getElem]
  rfl

/-- Settles O49: the bytes stored are the registers in order. -/
theorem storeRegisters : Obligations.StoreRegisters := by
  refine ⟨fun w hrow => decode_of_row (.opFX55 0) hrow, fun s x => ⟨_, exec_opFX55 x s, fun i hi => ?_, ?_⟩⟩
  · exact s.memRead_store_regsUpTo s.I.toNat hi
  · have h := s.onlyBytes_memWriteBytes s.I.toNat (s.regsUpTo x)
    rwa [State.regsUpTo_length] at h

/-- Settles O50: the registers loaded are those up to `X`. -/
theorem loadRegisters : Obligations.LoadRegisters := by
  refine ⟨fun w hrow => decode_of_row (.opFX65 0) hrow,
    fun s x => ⟨_, exec_opFX65 x s, fun i hi => ?_, fun i hi => ?_, rfl, s.memRead_congr _ (s.loadRegs_mem x _)⟩⟩
  · rw [State.reg_loadRegs, if_pos hi]
  · rw [State.reg_loadRegs, if_neg (not_le.2 hi)]

/-- Settles O19: the fetch reads the two addresses that registers 0 and 1 went to. -/
theorem storedCodeIsFetchedAtOnce : Obligations.StoredCodeIsFetchedAtOnce := by
  refine fun s x hx hI => ⟨_, exec_opFX55 x s, rfl, ?_⟩
  have high := s.memRead_store_regsUpTo s.I.toNat (i := 0) (x := x) (Nat.zero_le _)
  have low := s.memRead_store_regsUpTo s.I.toNat (i := 1) (x := x) hx
  rw [State.fetchWord_eq, State.memWriteBytes_pc, State.memRead_congr_addr _ hI.symm, ← high,
    State.memRead_congr_addr _ (show (s.pc.toNat + 1) % 4096 = (s.I.toNat + 1) % 4096 by omega), ← low]
  rfl

end Sys2Proof.Machine
end

section
/-!
PROOFS. Timers and keys: the ticks of a cycle, the instructions on the two timers, and the key wait (60_exceptions R216,
40_cycle R126, 46_timer_key R200 to R203).
-/

open Sys2Proof.Certificates

namespace Sys2Proof.Machine

/-! ### Ticks -/

/-- Settles O23: one tick of each timer, as a number, is its predecessor, and that of 0 is 0. -/
theorem tickDecrementsEachTimerToAFloorOfZero : Obligations.TickDecrementsEachTimerToAFloorOfZero := by
  intro s
  have tick (v : Byte) : (countdownOnce v).toNat = if v.toNat > 0 then v.toNat - 1 else 0 := by
    rw [countdownOnce_toNat]
    split <;> omega
  exact ⟨tick s.DT, tick s.ST, rfl⟩

/-- Settles O24: the end of a cycle by induction on its ticks, the timers by their value after `n` of them. -/
theorem ticksOfACycleAreAppliedOneAfterAnother : Obligations.TicksOfACycleAreAppliedOneAfterAnother := by
  refine fun n s => ⟨?_, countdown_toNat n s.DT, countdown_toNat n s.ST⟩
  induction n generalizing s with
  | zero => rfl
  | succ n ih =>
    rw [Function.iterate_succ_apply, ← ih s.timerTick]
    exact s.applyTicks_succ n

/-! ### The instructions on the timers -/

theorem exec_opFX07 (x : RegNum) (s : State) : exec (.opFX07 x) s = .next (s.setReg x s.DT) := rfl

theorem exec_opFX15 (x : RegNum) (s : State) : exec (.opFX15 x) s = .next (s.setDelay (s.reg x)) := rfl

theorem exec_opFX18 (x : RegNum) (s : State) : exec (.opFX18 x) s = .next (s.setSound (s.reg x)) := rfl

/-- Settles O53: the one register write is of the timer. -/
theorem readDelayTimer : Obligations.ReadDelayTimer := fun s x =>
  ⟨_, exec_opFX07 x s, s.reg_setReg_self x s.DT, rfl, s.onlyRegs_setReg x s.DT⟩

/-- Settles O54: each instruction is one write of a timer; the tone follows the sound timer. -/
theorem setTimers : Obligations.SetTimers := fun s x =>
  ⟨⟨_, exec_opFX15 x s, rfl, rfl, fun _ => rfl, fun _ => rfl⟩,
    ⟨_, exec_opFX18 x s, rfl, rfl, State.toneOn_iff _, fun _ => rfl, fun _ => rfl⟩⟩

/-- Settles O25: the step is the instruction and then the ticks, which count down whatever the instruction left in the
timer. -/
theorem ticksComeAfterTheInstruction : Obligations.TicksComeAfterTheInstruction := by
  refine fun s x => ⟨fun h => ?_, fun h => ?_, fun h => ?_⟩
  · exact ⟨_, step_of_nextIs h (exec_opFX07 x _), s.beginCycle.reg_setReg_self x s.DT, countdown_toNat _ s.DT⟩
  · exact ⟨_, step_of_nextIs h (exec_opFX15 x _), countdown_toNat _ (s.reg x)⟩
  · exact ⟨_, step_of_nextIs h (exec_opFX18 x _), countdown_toNat _ (s.reg x)⟩

/-! ### The key wait -/

/-- Settles O55: the two answers of the search for the lowest key. -/
theorem waitForKeyTakesTheLowestKeyOrRepeats : Obligations.WaitForKeyTakesTheLowestKeyOrRepeats := by
  refine fun s x => ⟨fun hkey => ?_, fun hkey => ?_⟩
  · obtain ⟨k, hk⟩ := Option.ne_none_iff_exists'.1 (mt (lowestKey_eq_none s.key).1 hkey)
    obtain ⟨hdown, hlower⟩ := lowestKey_eq_some s.key k hk
    have hval : (BitVec.ofNat 8 k.val).toNat = k.val := toNat_ofNat_byte (by omega)
    refine ⟨_, exec_opFX0A_of_some x hk, s.onlyRegs_setReg x _, ?_⟩
    rw [State.reg_setReg_self, hval]
    exact ⟨hdown, fun j hj => hlower ⟨j, by omega⟩ hj⟩
  · have hk := (lowestKey_eq_none s.key).2 hkey
    refine ⟨_, exec_opFX0A_of_none x hk, s.onlyPc_setPc _, ?_⟩
    rw [State.setPc_pc, BitVec.toNat_sub, Nat.add_comm]
    rfl

/-- The state after one cycle of waiting: its inputs are consumed and its ticks applied, and `pc` is where it was. -/
def State.afterWait (s : State) : State := (s.beginCycle.setPc s.pc).endCycle s.nextInput.ticks

theorem step_of_wait {s : State} {x : RegNum} (h : NextIs s (.opFX0A x)) (hkeys : s.nextInput.keys = 0#16) :
    step s = .next s.afterWait := by
  have hk : lowestKey s.beginCycle.key = none := (lowestKey_eq_none _).2 hkeys
  have hpc : s.beginCycle.pc - 2#16 = s.pc := BitVec.add_sub_cancel s.pc 2#16
  have hexec := exec_opFX0A_of_none x hk
  rw [hpc] at hexec
  exact step_of_nextIs h hexec

/-- One cycle of waiting, in the words of the schedule: it begins with `inp`. -/
theorem State.afterWait_of_cons {s : State} {inp : CycleInput} {rest : List CycleInput} (h : s.inputs = inp :: rest) :
    s.afterWait.inputs = rest ∧ s.afterWait.DT.toNat = s.DT.toNat - inp.ticks ∧
      s.afterWait.ST.toNat = s.ST.toNat - inp.ticks := by
  rw [← s.nextInput_of_cons h]
  exact ⟨congrArg List.tail h, countdown_toNat _ s.DT, countdown_toNat _ s.ST⟩

/-- Settles O18, by induction on the number of cycles: after one cycle of waiting the same instruction is next, with the
rest of the schedule. -/
theorem waitForKeyRepeatsUntilAKeyIsDown : Obligations.WaitForKeyRepeatsUntilAKeyIsDown := by
  intro n
  induction n with
  | zero =>
    intro s x _ _ _
    exact ⟨s, rfl, rfl, rfl, rfl, rfl, rfl, rfl, rfl, rfl, rfl, rfl, fun h => absurd h (by decide)⟩
  | succ n ih =>
    intro s x h hlen hkeys
    obtain ⟨inp, rest, hinputs⟩ := List.exists_cons_of_length_pos (show 0 < s.inputs.length by omega)
    obtain ⟨hin1, hDT1, hST1⟩ := State.afterWait_of_cons hinputs
    rw [hinputs] at hlen hkeys ⊢
    rw [List.take_succ_cons] at hkeys ⊢
    obtain ⟨hkeys1, hkeys⟩ := List.forall_mem_cons.1 hkeys
    have hstep : step s = .next s.afterWait := step_of_wait h (by rw [State.nextInput_of_cons hinputs, hkeys1])
    obtain ⟨t, hrun, hpc, hx, hmem, hfb, hI, hstack, hsp, hin, hDT, hST, hout⟩ :=
      ih s.afterWait x h (by rw [hin1]; exact Nat.le_of_succ_le_succ hlen) (by rwa [hin1])
    rw [hin1] at hin hDT hST
    rw [hDT1] at hDT
    rw [hST1] at hST
    refine ⟨t, (run_succ n hstep).trans hrun, hpc, hx, hmem, hfb, hI, hstack, hsp, hin, ?_, ?_, fun _ => ?_⟩
    · rw [hDT, List.map_cons, List.sum_cons, Nat.sub_sub]
    · rw [hST, List.map_cons, List.sum_cons, Nat.sub_sub]
    · cases n with
      | zero =>
        injection hrun with ht
        subst ht
        exact ⟨rfl, rfl⟩
      | succ n => exact hout n.succ_pos

/-! ### Diagnostics -/

theorem State.diag_callTo (s : State) (target : Word) :
    (s.callTo target).diag = if s.sp.val = 16 then .stackOverflow else s.diag := by
  rcases s.callTo_cases target with ⟨h, e⟩ | ⟨h, e⟩
  · rw [e, if_neg (by omega)]
  · rw [e, if_pos h]
    rfl

theorem State.diag_returnFromCall (s : State) :
    s.returnFromCall.diag = if s.sp.val = 0 then .stackUnderflow else s.diag := by
  rcases s.returnFromCall_cases with ⟨h, e⟩ | ⟨h, e⟩
  · rw [e, if_neg (by omega)]
  · rw [e, if_pos h]
    rfl

theorem diag_of_exec {i : Instr} {s t : State} (h : exec i s = .next t) (hi : mayReport i = false) :
    t.diag = s.diag :=
  eq_of_eq_ite (congrArg State.diag (exec_frame h)) hi

/-- Settles O56: the cycle begins with the code cleared, and the ticks leave it; between them an unknown opcode, a call
with a full stack and a return with an empty one report, and no other instruction does. -/
theorem diagnosticCodeOfACycle : Obligations.DiagnosticCodeOfACycle := by
  refine ⟨rfl, rfl, rfl, rfl, fun s => ?_⟩
  obtain ⟨t, ht⟩ := execDecoded_next (decode s.fetchWord) s.beginCycle
  refine ⟨_, step_of_exec s t ht, ?_⟩
  rw [State.endCycle_diag]
  cases hd : decode s.fetchWord with
  | unknown w =>
    rw [hd] at ht
    injection ht with ht
    subst ht
    rfl
  | instr i =>
    replace ht : exec i s.beginCycle = .next t := by rwa [hd] at ht
    cases i
    case op2NNN nnn =>
      injection ht with ht
      subst ht
      rw [State.diag_callTo, State.beginCycle_sp]
      split <;> rfl
    case op00EE =>
      injection ht with ht
      subst ht
      rw [State.diag_returnFromCall, State.beginCycle_sp]
      split <;> rfl
    all_goals exact congrArg Diag.code (diag_of_exec ht rfl)

end Sys2Proof.Machine
end

section
/-!
PROOFS. The framebuffer: clearing it, and drawing a sprite, whose pixels are those that the statement's `spriteCovers`
names (45_display R190, R191, R192).
-/

namespace Sys2Proof.Machine

theorem exec_op00E0 (s : State) : exec .op00E0 s = .next (s.setFb (Vector.replicate 32 0#64)) := rfl

/-- Settles O51: the one write is of the cleared framebuffer. -/
theorem clearScreen : Obligations.ClearScreen :=
  ⟨fun _ hrow => decode_of_row .op00E0 hrow, fun s => ⟨_, exec_op00E0 s,
    fun xx yy _ _ => Framebuffer.pixel_replicate_zero (yy * 64 + xx), rfl, s.reg_congr _ (s.setFb_x _),
    s.memRead_congr _ (s.setFb_mem _)⟩⟩

/-! ### Drawing -/

@[simp] theorem State.length_memReadBytes (s : State) (a n : Nat) : (s.memReadBytes a n).length = n := by
  simp [State.memReadBytes]

theorem State.getElem_memReadBytes (s : State) (a n k : Nat) (h : k < (s.memReadBytes a n).length) :
    (s.memReadBytes a n)[k] = s.memRead (a + k) := by
  simp [State.memReadBytes]

/-- The pixels of the grid that `DXYN` visits (45_display R191). -/
def State.drawnPixels (s : State) (x y : RegNum) (n : Fin 16) : List Nat :=
  spritePixels (spriteColumn (s.reg x)) (spriteRow (s.reg y)) (s.memReadBytes (s.indexAddr 0) n.val)

theorem exec_opDXYN (x y : RegNum) (n : Fin 16) (s : State) : exec (.opDXYN x y n) s =
    .next ((s.setFb (drawPixels s.fb (s.drawnPixels x y n)).1).setReg 15
      (flagByte (drawPixels s.fb (s.drawnPixels x y n)).2)) := rfl

theorem State.drawnPixels_nodup (s : State) (x y : RegNum) (n : Fin 16) : (s.drawnPixels x y n).Nodup :=
  spritePixels_nodup _ _ _

theorem State.drawnPixels_lt (s : State) (x y : RegNum) (n : Fin 16) : ∀ p ∈ s.drawnPixels x y n, p < 2048 :=
  spritePixels_lt _ _ _

/-- `spriteCovers` in coordinates relative to the sprite's start. -/
theorem spriteCovers_iff (s : State) (x y : RegNum) (n : Fin 16) (xx yy : Nat) :
    spriteCovers s x y n xx yy = true ↔ ∃ r c, r < n.val ∧ c < 8 ∧ yy = spriteRow (s.reg y) + r ∧
      xx = spriteColumn (s.reg x) + c ∧ (s.memRead (s.I.toNat + r)).getLsbD (7 - c) = true := by
  simp only [spriteCovers, Bool.and_eq_true, decide_eq_true_eq, spriteRow, spriteColumn]
  constructor
  · rintro ⟨⟨⟨⟨hx, hc⟩, hy⟩, hr⟩, hbit⟩
    exact ⟨_, _, by omega, by omega, by omega, by omega, hbit⟩
  · rintro ⟨r, c, hr, hc, rfl, rfl, hbit⟩
    refine ⟨⟨⟨⟨by omega, by omega⟩, by omega⟩, by omega⟩, ?_⟩
    rwa [Nat.add_sub_cancel_left, Nat.add_sub_cancel_left]

/-- A pixel of the grid is visited exactly when the sprite covers it. -/
theorem mem_drawnPixels_iff (s : State) (x y : RegNum) (n : Fin 16) {xx yy : Nat} (hx : xx < 64) (hy : yy < 32) :
    yy * 64 + xx ∈ s.drawnPixels x y n ↔ spriteCovers s x y n xx yy = true := by
  rw [State.drawnPixels, mem_spritePixels, spriteCovers_iff]
  simp only [State.length_memReadBytes, State.getElem_memReadBytes]
  constructor
  · rintro ⟨r, c, hr, hc, hrow, hcol, hbit, hp⟩
    exact ⟨r, c, hr, hc, by omega, by omega, hbit⟩
  · rintro ⟨r, c, hr, hc, rfl, rfl, hbit⟩
    exact ⟨r, c, hr, hc, by omega, by omega, hbit, rfl⟩

/-- A draw collides exactly when the sprite covers a lit pixel. -/
theorem drawPixels_hit_iff (s : State) (x y : RegNum) (n : Fin 16) :
    (drawPixels s.fb (s.drawnPixels x y n)).2 = true ↔ ∃ xx yy, xx < 64 ∧ yy < 32 ∧
      spriteCovers s x y n xx yy = true ∧ s.pixel (yy * 64 + xx) = true := by
  rw [drawPixels_hit s.fb _ (s.drawnPixels_nodup x y n), List.any_eq_true]
  constructor
  · rintro ⟨p, hp, hlit⟩
    have hlt : p < 2048 := s.drawnPixels_lt x y n p hp
    have hdiv : p / 64 * 64 + p % 64 = p := Nat.div_add_mod' p 64
    rw [← hdiv] at hp hlit
    exact ⟨p % 64, p / 64, by omega, by omega, (mem_drawnPixels_iff s x y n (by omega) (by omega)).1 hp, hlit⟩
  · rintro ⟨xx, yy, hx, hy, hcover, hlit⟩
    exact ⟨_, (mem_drawnPixels_iff s x y n hx hy).2 hcover, hlit⟩

theorem flagByte_eq_one_iff (c : Bool) : flagByte c = 1#8 ↔ c = true := by
  cases c <;> decide

theorem flagByte_eq_one_or_zero (c : Bool) : flagByte c = 1#8 ∨ flagByte c = 0#8 := by
  cases c <;> decide

/-- Settles O52: the pixels visited are those that the sprite covers, each once, so that it is flipped; the flag is
whether one of them was lit. -/
theorem drawXorsTheSpriteAndReportsCollision : Obligations.DrawXorsTheSpriteAndReportsCollision := by
  refine fun s x y n => ⟨_, exec_opDXYN x y n s, fun xx yy hx hy => ?_, ?_, ?_, rfl, fun r hr => ?_, fun _ => rfl⟩
  · have hcover : decide (yy * 64 + xx ∈ s.drawnPixels x y n) = spriteCovers s x y n xx yy := by
      rw [Bool.eq_iff_iff, decide_eq_true_eq, mem_drawnPixels_iff s x y n hx hy]
    rw [← hcover]
    exact drawPixels_pixel s.fb _ (s.drawnPixels_nodup x y n) (s.drawnPixels_lt x y n) _
  · rw [State.reg_setReg_self, flagByte_eq_one_iff, drawPixels_hit_iff]
  · rw [State.reg_setReg_self]
    exact flagByte_eq_one_or_zero _
  · rw [State.reg_setReg, if_neg hr]
    rfl

end Sys2Proof.Machine
end
